-- ==== Sys2Proof/Word.lean ====
section
/-! DEFINITION. The word types of the IRTM codec core (00_scope.md R9, R11): all quantities are unsigned,
bit 0 is the least significant bit. -/

namespace Sys2Proof

/-- One byte: an operation code, a packet byte, an address, a code, `repeatCount` (R9). -/
abbrev Byte := BitVec 8

/-- The port's data words DIN and DOUT (R80). -/
abbrev Word := BitVec 32

/-- A tick count as COUNTDOWN, STEP's operand and the primitives hold it: 16 bits (R9). -/
abbrev Ticks := BitVec 16

/-- A captured length: 15 bits (R9, R84). -/
abbrev PulseLength := BitVec 15

end Sys2Proof
end

