-- ==== Sys2Proof/Config.lean ====
section
/-! DEFINITION. What an implementation of the core fixes (00_scope.md R6 to R9, 93_implementation_defined.md I1 to I3)
and the values the spec leaves open, each an opaque constant without a body. -/

namespace Sys2Proof

/-- Element size in bytes and capacity in elements of one bounded queue (R13, R22). -/
structure QueueShape where
  esz : Nat
  cap : Nat
  deriving DecidableEq, Repr

/-- The eight timing constants of R7 as one record (I2), in ticks. -/
structure Timing where
  leadBurst : Ticks
  cmdMsg : Ticks
  keyMsg : Ticks
  bitStart : Ticks
  bitLow : Ticks
  bitHigh : Ticks
  trailBurst : Ticks
  cmdKeyGap : Ticks
  deriving DecidableEq, Repr

/-- The values of R7: T_LEAD_BURST, T_CMD_MSG, T_KEY_MSG, T_BIT_START, T_BIT_LOW, T_BIT_HIGH, T_TRAIL_BURST and
T_CMD_KEY_GAP. UNVERIFIED: the source's numerals are unaudited (I2); unsafe, log entry 7. -/
def Config.timing : Timing :=
  { leadBurst := 342
    cmdMsg := 513
    keyMsg := 425
    bitStart := 22
    bitLow := 43
    bitHigh := 86
    trailBurst := 22
    cmdKeyGap := 1510 }

/-- T_SYNC_REF of R8 and R176: 1510 ticks (UNVERIFIED: the spec's decision D8; unsafe, log entry 19). -/
def Config.syncRef : Ticks := 1510

/-- EV_BYTES of R6: a capture event takes 2 bytes of CAP (UNVERIFIED: the spec's decision D4; unsafe, log entry 8). -/
def Config.evBytes : Nat := 2

/-- LEN_MAX of R9 and R84, the "maximum or more" sentinel (I1; UNVERIFIED: the spec's decision D4; unsafe, log entry 8). -/
def Config.lenMax : Nat := 0x7FFF

/-- OUT holds 2 packets of 4 bytes (R6, R22). -/
def Config.outShape : QueueShape := { esz := 4, cap := 2 }

/-- CAP holds 16 events of EV_BYTES bytes (R6, R22). -/
def Config.capShape : QueueShape := { esz := Config.evBytes, cap := 16 }

/-- RCV holds 8 commands of 2 bytes (R6, R22). -/
def Config.rcvShape : QueueShape := { esz := 2, cap := 8 }

/-- The open parameter T_AUTOREPEAT_PAUSE less one: the spec allows 1 to 65535 ticks and gives no value
(R7, D9, I3). DESIGN CHOICE: a free value; safe, log entry 6. -/
opaque Config.autorepeatPauseLessOne : Fin 65535

/-- T_AUTOREPEAT_PAUSE (R7, R144): any value from 1 to 65535 ticks. -/
def Config.autorepeatPause : Ticks := BitVec.ofNat 16 (Config.autorepeatPauseLessOne.val + 1)

/-- The data bit ENC.STEP sends in DataBitBurst when its position (`currentByte`, `pendingBitCount`) is none of the
packet's 32 bits: R141 states no value, and R31 rules such states out. A free value, a function of the position
and of the packet buffer as a word; safe, log entry 9. -/
opaque Config.freeBit : Fin 5 → Fin 9 → Word → Bool

/-- `pendingBitCount - 1` where `pendingBitCount` is 0 (R141 states no value; R31 rules it out). Free value; safe,
log entry 9. -/
opaque Config.freeBitCount : Fin 5 → Fin 9

/-- `currentByte + 1` where `currentByte` is 4 (R141 states no value; R31 rules it out). Free value, a function of
the bit count after the decrement; safe, log entry 9. -/
opaque Config.freeByteIndex : Fin 9 → Fin 5

end Sys2Proof
end

