-- ==== Sys2Proof/Syntax.lean ====
section
/-! DEFINITION. The operations of the core and their operands: one constructor of `Instr` per row of
spec/opcode_table.json (30_encoding.md R83), and what a presentation on the operation port is (R80). -/

namespace Sys2Proof

/-- The two execution contexts of R19 and R231. -/
inductive Ctx where
  | poll
  | isr
  deriving DecidableEq, Repr

/-- A packet: four bytes in wire order, byte 0 first (R17, R62). ENC.SUBMIT makes them
`[address, ~address, code, ~code]`; OUT.TRYWRITE stores any four (R111). -/
structure Packet where
  b0 : Byte
  b1 : Byte
  b2 : Byte
  b3 : Byte
  deriving DecidableEq, Repr

/-- A command `{address, code}`, address first (R17, R64). -/
structure Command where
  address : Byte
  code : Byte
  deriving DecidableEq, Repr

/-- A capture event `{isBurst, length}` (R17, R84). -/
structure PulseEvent where
  isBurst : Bool
  length : PulseLength
  deriving DecidableEq, Repr

/-- The operations of R83, in the table's order; an operand is what R85 lays out in DIN. -/
inductive Instr where
  /-- 0x00 OUT.TRYWRITE (R111) -/
  | outTrywrite (p : Packet)
  /-- 0x01 OUT.TRYREAD (R112) -/
  | outTryread
  /-- 0x02 OUT.CLEAR (R113) -/
  | outClear
  /-- 0x03 OUT.FREESPACE (R114) -/
  | outFreespace
  /-- 0x10 CAP.TRYWRITE (R115) -/
  | capTrywrite (e : PulseEvent)
  /-- 0x11 CAP.TRYREAD (R116) -/
  | capTryread
  /-- 0x12 CAP.CLEAR (R117) -/
  | capClear
  /-- 0x13 CAP.FREESPACE (R118) -/
  | capFreespace
  /-- 0x20 RCV.TRYWRITE (R119) -/
  | rcvTrywrite (c : Command)
  /-- 0x21 RCV.TRYREAD (R120) -/
  | rcvTryread
  /-- 0x22 RCV.CLEAR (R121) -/
  | rcvClear
  /-- 0x23 RCV.FREESPACE (R122) -/
  | rcvFreespace
  /-- 0x30 ENC.CANACCEPT (R131) -/
  | encCanaccept
  /-- 0x31 ENC.ISIDLE (R132) -/
  | encIsidle
  /-- 0x32 ENC.SUBMIT (R133) -/
  | encSubmit (c : Command)
  /-- 0x33 ENC.RESET (R134) -/
  | encReset
  /-- 0x34 ENC.STEP (R135) -/
  | encStep (remainingTicks : Ticks)
  /-- 0x40 DEC.ISIDLE (R180) -/
  | decIsidle
  /-- 0x41 DEC.TAKE (R181) -/
  | decTake
  /-- 0x42 DEC.RESET (R179) -/
  | decReset
  /-- 0x43 DEC.ONEVENT (R182) -/
  | decOnevent (e : PulseEvent)
  /-- 0x50 TMR.TICK (R210) -/
  | tmrTick
  deriving DecidableEq, Repr

/-- One presentation on the operation port: the issuing context, OP[7:0] and DIN[31:0] (R80). -/
structure Presentation where
  ctx : Ctx
  op : Byte
  din : Word
  deriving DecidableEq, Repr

/-- The operand form `pkt(b0,b1,b2,b3)` of R90. -/
def pkt (b0 b1 b2 b3 : Byte) : Packet := { b0, b1, b2, b3 }

/-- The operand form `cmd(address,code)` of R90. -/
def cmd (address code : Byte) : Command := { address, code }

/-- The operand form `Burst(L)` of R84 and R90. -/
def burst (length : PulseLength) : PulseEvent := { isBurst := true, length }

/-- The operand form `Pause(L)` of R84 and R90. -/
def pause (length : PulseLength) : PulseEvent := { isBurst := false, length }

end Sys2Proof
end

