-- ==== Sys2Proof/WellFormed.lean ====
section
/-! DEFINITION. Which operations are well formed. The operand types already hold every value their DIN fields admit
(30_encoding.md R85), so the one check left is that a capture event's length does not exceed the sentinel LEN_MAX
(R84, R89), which is a parameter (93_implementation_defined.md I1). -/

namespace Sys2Proof

/-- An event's length is at most the sentinel (R84: `LEN_MAX` means "`LEN_MAX` or more"). -/
def eventWellFormed (lenMax : Nat) (e : PulseEvent) : Bool := decide (e.length.toNat ≤ lenMax)

/-- The operand check, for a given sentinel. -/
def wellFormedFor (lenMax : Nat) : Instr → Bool
  | .capTrywrite e => eventWellFormed lenMax e
  | .decOnevent e => eventWellFormed lenMax e
  | .outTrywrite _ => true
  | .outTryread => true
  | .outClear => true
  | .outFreespace => true
  | .capTryread => true
  | .capClear => true
  | .capFreespace => true
  | .rcvTrywrite _ => true
  | .rcvTryread => true
  | .rcvClear => true
  | .rcvFreespace => true
  | .encCanaccept => true
  | .encIsidle => true
  | .encSubmit _ => true
  | .encReset => true
  | .encStep _ => true
  | .decIsidle => true
  | .decTake => true
  | .decReset => true
  | .tmrTick => true

/-- Well formed for the model's own LEN_MAX. Its length field is 15 bits, so no event exceeds 0x7FFF (R89). -/
def Instr.wellFormed (i : Instr) : Bool := wellFormedFor Config.lenMax i

end Sys2Proof
end

