-- ==== Sys2Proof/Decode.lean ====
section
/-! DEFINITION. Decoding and encoding of the operation port (30_encoding.md): OP[7:4] is the unit, OP[3:0] the
function within it (R81), DIN the operand (R85). Total on every OP; an undefined OP is rejected by name (R88). -/

namespace Sys2Proof

/-- Why an OP is undefined (R88). -/
inductive DecodeError where
  /-- units 0x6 to 0xF are reserved (R82) -/
  | reservedUnit (unit : Nat)
  /-- a function code the unit does not have -/
  | reservedFunc (unit func : Nat)
  deriving DecidableEq, Repr

/-- OP[7:4] (R81). -/
def unitOf (op : Byte) : Nat := (op.extractLsb' 4 4).toNat

/-- OP[3:0] (R81). -/
def funcOf (op : Byte) : Nat := (op.extractLsb' 0 4).toNat

/-! ### DIN and DOUT layouts (R85): byte `i` is bits `[8i+7:8i]` -/

/-- Byte `i` of a word (R65). -/
def byteOf (w : Word) (i : Nat) : Byte := w.extractLsb' (8 * i) 8

/-- A packet read from DIN. -/
def packetOfWord (w : Word) : Packet := pkt (byteOf w 0) (byteOf w 1) (byteOf w 2) (byteOf w 3)

/-- A packet on DIN or DOUT. -/
def wordOfPacket (p : Packet) : Word :=
  p.b0.setWidth 32 ||| (p.b1.setWidth 32 <<< 8) ||| (p.b2.setWidth 32 <<< 16) ||| (p.b3.setWidth 32 <<< 24)

/-- A command read from DIN[15:0]. -/
def commandOfWord (w : Word) : Command := cmd (byteOf w 0) (byteOf w 1)

/-- A command on DIN or DOUT; the upper half is zero. -/
def wordOfCommand (c : Command) : Word := c.address.setWidth 32 ||| (c.code.setWidth 32 <<< 8)

/-- The 16-bit PulseEvent word: bit 15 is isBurst, bits 14:0 the length (R84). -/
def eventBits (e : PulseEvent) : BitVec 16 :=
  e.length.setWidth 16 ||| ((BitVec.ofBool e.isBurst).setWidth 16 <<< 15)

/-- An event read from DIN[15:0]. -/
def eventOfWord (w : Word) : PulseEvent := { isBurst := w.getLsbD 15, length := w.extractLsb' 0 15 }

/-- An event on DIN or DOUT; the upper half is zero. -/
def wordOfEvent (e : PulseEvent) : Word := (eventBits e).setWidth 32

/-- A tick count read from DIN[15:0] (STEP's operand). -/
def ticksOfWord (w : Word) : Ticks := w.extractLsb' 0 16

/-- A tick count on DIN or DOUT (STEP's operand, TICK's new countdown). -/
def wordOfTicks (t : Ticks) : Word := t.setWidth 32

/-! ### The decoder (R81 to R83, R88) -/

/-- Unit 0, OUT. -/
def decodeOut (func : Nat) (din : Word) : Except DecodeError Instr :=
  match func with
  | 0 => .ok (.outTrywrite (packetOfWord din))
  | 1 => .ok .outTryread
  | 2 => .ok .outClear
  | 3 => .ok .outFreespace
  | n => .error (.reservedFunc 0 n)

/-- Unit 1, CAP. -/
def decodeCap (func : Nat) (din : Word) : Except DecodeError Instr :=
  match func with
  | 0 => .ok (.capTrywrite (eventOfWord din))
  | 1 => .ok .capTryread
  | 2 => .ok .capClear
  | 3 => .ok .capFreespace
  | n => .error (.reservedFunc 1 n)

/-- Unit 2, RCV. -/
def decodeRcv (func : Nat) (din : Word) : Except DecodeError Instr :=
  match func with
  | 0 => .ok (.rcvTrywrite (commandOfWord din))
  | 1 => .ok .rcvTryread
  | 2 => .ok .rcvClear
  | 3 => .ok .rcvFreespace
  | n => .error (.reservedFunc 2 n)

/-- Unit 3, ENC. -/
def decodeEnc (func : Nat) (din : Word) : Except DecodeError Instr :=
  match func with
  | 0 => .ok .encCanaccept
  | 1 => .ok .encIsidle
  | 2 => .ok (.encSubmit (commandOfWord din))
  | 3 => .ok .encReset
  | 4 => .ok (.encStep (ticksOfWord din))
  | n => .error (.reservedFunc 3 n)

/-- Unit 4, DEC. -/
def decodeDec (func : Nat) (din : Word) : Except DecodeError Instr :=
  match func with
  | 0 => .ok .decIsidle
  | 1 => .ok .decTake
  | 2 => .ok .decReset
  | 3 => .ok (.decOnevent (eventOfWord din))
  | n => .error (.reservedFunc 4 n)

/-- Unit 5, TMR. -/
def decodeTmr (func : Nat) : Except DecodeError Instr :=
  match func with
  | 0 => .ok .tmrTick
  | n => .error (.reservedFunc 5 n)

/-- The decoder: the unit first, then the function (R81). -/
def decode (op : Byte) (din : Word) : Except DecodeError Instr :=
  match unitOf op with
  | 0 => decodeOut (funcOf op) din
  | 1 => decodeCap (funcOf op) din
  | 2 => decodeRcv (funcOf op) din
  | 3 => decodeEnc (funcOf op) din
  | 4 => decodeDec (funcOf op) din
  | 5 => decodeTmr (funcOf op)
  | u => .error (.reservedUnit u)

/-- `decodeTableWord nbits w`: the instruction whose low `nbits` bits are `w`, every bit above them 0. OP is the first
byte; DIN's four bytes follow, byte 0 first (R65; DESIGN CHOICE for this numbering, safe, log entry 24). -/
def decodeTableWord (nbits w : Nat) : Option Instr :=
  let v := w % 2 ^ nbits
  match decode (BitVec.ofNat 8 v) (BitVec.ofNat 32 (v / 256)) with
  | .ok i => some i
  | .error _ => none

/-! ### The encoder (R83, R85) -/

/-- The operation code of the opcode map (R83). -/
def opcodeOf : Instr → Byte
  | .outTrywrite _ => 0x00
  | .outTryread => 0x01
  | .outClear => 0x02
  | .outFreespace => 0x03
  | .capTrywrite _ => 0x10
  | .capTryread => 0x11
  | .capClear => 0x12
  | .capFreespace => 0x13
  | .rcvTrywrite _ => 0x20
  | .rcvTryread => 0x21
  | .rcvClear => 0x22
  | .rcvFreespace => 0x23
  | .encCanaccept => 0x30
  | .encIsidle => 0x31
  | .encSubmit _ => 0x32
  | .encReset => 0x33
  | .encStep _ => 0x34
  | .decIsidle => 0x40
  | .decTake => 0x41
  | .decReset => 0x42
  | .decOnevent _ => 0x43
  | .tmrTick => 0x50

/-- The operand as DIN holds it; an operation without one is presented with DIN = 0. -/
def dinOf : Instr → Word
  | .outTrywrite p => wordOfPacket p
  | .outTryread => 0
  | .outClear => 0
  | .outFreespace => 0
  | .capTrywrite e => wordOfEvent e
  | .capTryread => 0
  | .capClear => 0
  | .capFreespace => 0
  | .rcvTrywrite c => wordOfCommand c
  | .rcvTryread => 0
  | .rcvClear => 0
  | .rcvFreespace => 0
  | .encCanaccept => 0
  | .encIsidle => 0
  | .encSubmit c => wordOfCommand c
  | .encReset => 0
  | .encStep t => wordOfTicks t
  | .decIsidle => 0
  | .decTake => 0
  | .decReset => 0
  | .decOnevent e => wordOfEvent e
  | .tmrTick => 0

/-- The DIN bits an operation reads; the others are ignored (R85, R89). -/
def dinMask : Instr → Word
  | .outTrywrite _ => 0xFFFFFFFF
  | .outTryread => 0
  | .outClear => 0
  | .outFreespace => 0
  | .capTrywrite _ => 0xFFFF
  | .capTryread => 0
  | .capClear => 0
  | .capFreespace => 0
  | .rcvTrywrite _ => 0xFFFF
  | .rcvTryread => 0
  | .rcvClear => 0
  | .rcvFreespace => 0
  | .encCanaccept => 0
  | .encIsidle => 0
  | .encSubmit _ => 0xFFFF
  | .encReset => 0
  | .encStep _ => 0xFFFF
  | .decIsidle => 0
  | .decTake => 0
  | .decReset => 0
  | .decOnevent _ => 0xFFFF
  | .tmrTick => 0

/-- The encoder: OP and DIN of an operation. -/
def encode (i : Instr) : Byte × Word := (opcodeOf i, dinOf i)

/-- An operation presented from a context (R80). -/
def present (ctx : Ctx) (i : Instr) : Presentation := { ctx, op := opcodeOf i, din := dinOf i }

/-- The operation codes of the opcode map, in its order (R83). -/
def definedOps : List Byte :=
  [0x00, 0x01, 0x02, 0x03, 0x10, 0x11, 0x12, 0x13, 0x20, 0x21, 0x22, 0x23,
   0x30, 0x31, 0x32, 0x33, 0x34, 0x40, 0x41, 0x42, 0x43, 0x50]

/-! ### Assembler form (R90) -/

/-- The mnemonic of the opcode map (R83). -/
def mnemonicOf : Instr → String
  | .outTrywrite _ => "OUT.TRYWRITE"
  | .outTryread => "OUT.TRYREAD"
  | .outClear => "OUT.CLEAR"
  | .outFreespace => "OUT.FREESPACE"
  | .capTrywrite _ => "CAP.TRYWRITE"
  | .capTryread => "CAP.TRYREAD"
  | .capClear => "CAP.CLEAR"
  | .capFreespace => "CAP.FREESPACE"
  | .rcvTrywrite _ => "RCV.TRYWRITE"
  | .rcvTryread => "RCV.TRYREAD"
  | .rcvClear => "RCV.CLEAR"
  | .rcvFreespace => "RCV.FREESPACE"
  | .encCanaccept => "ENC.CANACCEPT"
  | .encIsidle => "ENC.ISIDLE"
  | .encSubmit _ => "ENC.SUBMIT"
  | .encReset => "ENC.RESET"
  | .encStep _ => "ENC.STEP"
  | .decIsidle => "DEC.ISIDLE"
  | .decTake => "DEC.TAKE"
  | .decReset => "DEC.RESET"
  | .decOnevent _ => "DEC.ONEVENT"
  | .tmrTick => "TMR.TICK"

/-- One hexadecimal digit. -/
def hexDigit (n : Nat) : Char := ("0123456789ABCDEF".toList).getD (n % 16) '0'

/-- The low `digits` hexadecimal digits of a number, most significant first. -/
def hexDigits : Nat → Nat → List Char
  | 0, _ => []
  | k + 1, n => hexDigits k (n / 16) ++ [hexDigit n]

/-- The encoded form `OP:DIN` of a line (R90), for example `34:00000000`. -/
def encodedForm (i : Instr) : String :=
  String.ofList (hexDigits 2 (opcodeOf i).toNat ++ [':'] ++ hexDigits 8 (dinOf i).toNat)

end Sys2Proof
end

