-- ==== Sys2Proof/Machine/State.lean ====
section
/-! DEFINITION. The state of the core (10_state.md R20 to R41), as plain data, its reset value (70_reset_and_hazards.md
R250), and the reasons a step can stop (30_encoding.md R88, 60_exceptions.md R220, R225). -/

namespace Sys2Proof.Machine

/-- The encoder's status (R24). -/
inductive EncStatus where
  | idle
  | leadBurst
  | leadPause
  | dataBitBurst
  | dataBitPause
  | trailingBurst
  | intervalPause
  deriving DecidableEq, Repr

/-- Which message is in progress, for the encoder (R25) and the decoder (R32). -/
inductive MessageKind where
  | none
  | command
  | keypress
  deriving DecidableEq, Repr

/-- The level the environment is told to drive (R36). -/
inductive OutMode where
  | off
  | burst
  | pause
  deriving DecidableEq, Repr

/-- One environment-primitive call, as the pulse trace records it (R36). -/
inductive TraceEntry where
  | burst (n : Ticks)
  | pause (n : Ticks)
  | stop
  deriving DecidableEq, Repr

/-- EmitterState (R24 to R30). -/
structure EmitterState where
  /-- R24 -/
  status : EncStatus
  /-- R25 -/
  messageKind : MessageKind
  /-- the operand of the most recent ENC.STEP (R26) -/
  remainingTicks : Ticks
  /-- 0 to 4; 4 means all four bytes are sent (R27; DEDUCED as a five-valued type from R41, safe, log entry 10) -/
  currentByte : Fin 5
  /-- 0 to 8 bits of the current byte not yet sent (R28; DEDUCED as a nine-valued type from R41, safe, log entry 10) -/
  pendingBitCount : Fin 9
  /-- extra keypress messages still to send (R29) -/
  repeatCount : Byte
  /-- the packet being sent (R30) -/
  packetBuffer : Packet
  deriving DecidableEq, Repr

/-- ReceiverState (R32 to R35). -/
structure ReceiverState where
  /-- R32 -/
  messageKind : MessageKind
  /-- R33 -/
  lastBurstLength : PulseLength
  /-- R34 -/
  bitAccumulator : Byte
  /-- 0 to 7 between events (R34; DEDUCED as an eight-valued type from R41, safe, log entry 10) -/
  pendingBitCount : Fin 8
  /-- whole bytes completed, saturating at 255 (R34) -/
  byteIndex : Byte
  /-- `[0]` is the address, `[1]` the code (R35) -/
  decodedCommand : Command
  deriving DecidableEq, Repr

/-- The answer of one operation on the port: OK and DOUT (R15, R38, R80). -/
structure Result where
  ok : Bool
  dout : Word
  deriving DecidableEq, Repr

/-- The whole state: the record of R41, then the model's own view of the operation port. -/
structure State where
  /-- OUT.items, oldest first (R21, R22) -/
  out : List Packet
  /-- CAP.items, oldest first (R21, R22) -/
  cap : List PulseEvent
  /-- RCV.items, oldest first (R21, R22) -/
  rcv : List Command
  /-- EmitterState -/
  enc : EmitterState
  /-- ReceiverState -/
  dec : ReceiverState
  /-- the active pulse countdown (R37) -/
  countdown : Ticks
  /-- OUTMODE (R36) -/
  outMode : OutMode
  /-- TRACE, oldest first (R36) -/
  trace : List TraceEntry
  /-- The model's own field: presentations not yet taken, next first; one list is one interleaving of the two contexts
  (R70, R80, R265). DESIGN CHOICE; safe, log entry 1. -/
  port : List Presentation
  /-- The model's own field: the context of the operation now on the port (R80). DESIGN CHOICE; unsafe, log entry 2. -/
  ctx : Ctx
  /-- The model's own field: the answers the port gave, oldest first; the core does not store them (R38), a run's
  observation holds them (R265). DESIGN CHOICE; safe, log entry 3. -/
  results : List Result
  deriving DecidableEq, Repr

/-- The core raises no exception and has no trap mechanism, and every operation completes (R220): no step ends in a
fault, so there is no constructor and nobody raises one (safe: nothing is stopped). -/
inductive Fault where
  deriving DecidableEq, Repr

/-- Why the model gives a presentation no meaning. Refusals are the model's, not the hardware's (R225); a refused run is
over, which is the refusal mark (log entry 12). -/
inductive Refusal where
  /-- Raised by an arm of `exec` for an instruction without a meaning yet; no arm does. Safe. -/
  | notModelled (mnemonic : String)
  /-- Raised by `step` for an OP outside the opcode map, `refuse(UndefinedOp)` of R88. Safe. -/
  | undefinedOp (op : Byte)
  /-- Raised by every meaning whose operation the context table of R232 does not allow from the presenting context,
  `refuse(WrongContext)` of R88. Safe. -/
  | wrongContext (mnemonic : String) (ctx : Ctx)
  deriving DecidableEq, Repr

/-- How one operation ends. -/
abbrev Outcome := Host.Outcome State Fault Refusal

/-- EmitterState after reset (R24 to R30, R41). -/
def EmitterState.reset : EmitterState :=
  { status := .idle
    messageKind := .none
    remainingTicks := 0
    currentByte := 0
    pendingBitCount := 0
    repeatCount := 0
    packetBuffer := { b0 := 0, b1 := 0, b2 := 0, b3 := 0 } }

/-- ReceiverState after reset, and after DEC.RESET (R32 to R35, R178). -/
def ReceiverState.reset : ReceiverState :=
  { messageKind := .none
    lastBurstLength := 0
    bitAccumulator := 0
    pendingBitCount := 0
    byteIndex := 0
    decodedCommand := { address := 0, code := 0 } }

/-- The core right after a system reset (R250, R41). The values R41 takes from decision D10 are log entry 4 (unsafe); the last
three fields are the model's own (log entries 1 to 3). -/
def State.reset : State :=
  { out := []
    cap := []
    rcv := []
    enc := EmitterState.reset
    dec := ReceiverState.reset
    countdown := 0
    outMode := .off
    trace := []
    port := []
    ctx := .poll
    results := [] }

end Sys2Proof.Machine
end

