-- ==== Sys2Proof/Machine/Ops.lean ====
section
/-! DEFINITION. The named operations over the state: the queue primitives (00_scope.md R13, 40_queue.md R110), the
environment primitives (10_state.md R36), the operation port (30_encoding.md R80) and the system reset
(70_reset_and_hazards.md R250). The core has no exception entry and no return (60_exceptions.md R229, R230). -/

namespace Sys2Proof.Machine

/-! ### Updates of one field -/

def State.withOut (s : State) (q : List Packet) : State := { s with out := q }
def State.withCap (s : State) (q : List PulseEvent) : State := { s with cap := q }
def State.withRcv (s : State) (q : List Command) : State := { s with rcv := q }
def State.withEnc (s : State) (e : EmitterState) : State := { s with enc := e }
def State.withDec (s : State) (d : ReceiverState) : State := { s with dec := d }
def State.withCountdown (s : State) (t : Ticks) : State := { s with countdown := t }

/-! ### Bounded queues (R13, R110): an element is always whole, so a queue is its list of items (R21, R23) -/

/-- QLen(q) (R13). -/
def qLen {α : Type} (q : List α) : Nat := q.length

/-- QFree(q) in bytes (R13). -/
def qFree {α : Type} (sh : QueueShape) (q : List α) : Nat := (sh.cap - qLen q) * sh.esz

/-- Whether one more element fits: QFree(q) >= q.esz (R110). -/
def qHasRoom {α : Type} (sh : QueueShape) (q : List α) : Bool := decide (sh.esz ≤ qFree sh q)

/-- QPush(q, e) (R13). -/
def qPush {α : Type} (q : List α) (e : α) : List α := q ++ [e]

/-- TryWrite(q, e) (R110): whether it was written, and the queue after. -/
def tryWrite {α : Type} (sh : QueueShape) (q : List α) (e : α) : Bool × List α :=
  if qHasRoom sh q then (true, qPush q e) else (false, q)

/-- TryRead(q) (R110): the element read, if any, and the queue after. -/
def tryRead {α : Type} (q : List α) : Option α × List α :=
  match q with
  | [] => (none, [])
  | e :: rest => (some e, rest)

/-! ### Environment primitives (R14, R36) -/

/-- StartBurst(n) (R36). -/
def startBurst (s : State) (n : Ticks) : State :=
  { s with outMode := .burst, countdown := n, trace := s.trace ++ [.burst n] }

/-- StartPause(n) (R36). -/
def startPause (s : State) (n : Ticks) : State :=
  { s with outMode := .pause, countdown := n, trace := s.trace ++ [.pause n] }

/-- StopOutput() (R36). -/
def stopOutput (s : State) : State :=
  { s with outMode := .off, trace := s.trace ++ [.stop] }

/-! ### The operation port (R80) -/

/-- The port answers (OK, DOUT) (R15, R38). -/
def State.respond (s : State) (ok : Bool) (dout : Word) : State :=
  { s with results := s.results ++ [{ ok, dout }] }

/-- The port takes a presentation: its context stands on the port, the later ones wait. -/
def State.accept (s : State) (ctx : Ctx) (rest : List Presentation) : State :=
  { s with ctx := ctx, port := rest }

/-- The next presentation, and the state with it taken from the port; none while the port waits (R251). -/
def fetch (s : State) : Option (Presentation × State) :=
  match s.port with
  | [] => none
  | p :: rest => some (p, s.accept p.ctx rest)

/-- System reset: every field takes its reset value and nothing survives (R40, R250, R251). It is no operation of the
port, so no step performs it (log entry 21). -/
def systemReset (_s : State) : State := State.reset

end Sys2Proof.Machine
end

