-- ==== Sys2Proof/Machine/Operands.lean ====
section
/-! DEFINITION. The context table (60_exceptions.md R232) and what the two state machines compute from their operands:
the packet's bits in wire order (20_memory.md R63), the total duration, the tolerance windows and the classification
(42_decoder.md R170 to R176). -/

namespace Sys2Proof.Machine

/-! ### Contexts in place of privilege (R231, R232) -/

/-- A row of the context table: the contexts that may issue an operation. -/
inductive CtxRule where
  | pollOnly
  | isrOnly
  | both
  deriving DecidableEq, Repr

/-- Whether a row allows a context. -/
def CtxRule.allows : CtxRule → Ctx → Bool
  | .pollOnly, .poll => true
  | .pollOnly, .isr => false
  | .isrOnly, .poll => false
  | .isrOnly, .isr => true
  | .both, .poll => true
  | .both, .isr => true

/-- The context table of R232. -/
def ctxRuleOf : Instr → CtxRule
  | .outTrywrite _ => .pollOnly
  | .outTryread => .pollOnly
  | .outClear => .both
  | .outFreespace => .both
  | .capTrywrite _ => .isrOnly
  | .capTryread => .pollOnly
  | .capClear => .both
  | .capFreespace => .both
  | .rcvTrywrite _ => .pollOnly
  | .rcvTryread => .pollOnly
  | .rcvClear => .both
  | .rcvFreespace => .both
  | .encCanaccept => .pollOnly
  | .encIsidle => .pollOnly
  | .encSubmit _ => .pollOnly
  | .encReset => .pollOnly
  | .encStep _ => .pollOnly
  | .decIsidle => .pollOnly
  | .decTake => .pollOnly
  | .decReset => .pollOnly
  | .decOnevent _ => .pollOnly
  | .tmrTick => .isrOnly

/-- The context an operation is presented from where a caller names none: ISR for the operations only the ISR may issue,
POLL for the others, as the assembler's default (R90; DESIGN CHOICE, safe, log entry 20). -/
def issuerOf (i : Instr) : Ctx :=
  match ctxRuleOf i with
  | .pollOnly => .poll
  | .isrOnly => .isr
  | .both => .poll

/-- An operation's effect, issued from a context its row allows; refused by name from any other (R88, R232). -/
def inContext (rule : CtxRule) (mnemonic : String) (s : State) (effect : State) : Outcome :=
  if rule.allows s.ctx then .next effect else .refused (.wrongContext mnemonic s.ctx)

/-- The presentation a table word stands for (log entries 20 and 24): OP is the low byte, DIN the four bytes above it. -/
def presentTableWord (nbits w : Nat) : Presentation :=
  let v := w % 2 ^ nbits
  let op := BitVec.ofNat 8 v
  let din := BitVec.ofNat 32 (v / 256)
  match decode op din with
  | .ok i => { ctx := issuerOf i, op, din }
  | .error _ => { ctx := .poll, op, din }

/-! ### Packets on the wire (R62, R63, R133) -/

/-- Byte `i` of a packet; 0 to 3 are its bytes. -/
def packetByte (p : Packet) (i : Nat) : Byte :=
  match i with
  | 0 => p.b0
  | 1 => p.b1
  | 2 => p.b2
  | _ => p.b3

/-- Wire bit `k`, 0 to 31: `packetBuffer[k div 8][k mod 8]` (R63). -/
def wireBit (p : Packet) (k : Nat) : Bool := (packetByte p (k / 8)).getLsbD (k % 8)

/-- The packet of a command: `[address, ~address, code, ~code]` (R17, R133). -/
def packetOfCommand (c : Command) : Packet := pkt c.address (~~~c.address) c.code (~~~c.code)

/-! ### Tolerance and classification (R170 to R176) -/

/-- Tol(r): a tenth of the reference, exact halves up (R171; UNVERIFIED: the spec's decision D6; unsafe, log entry 19). -/
def tol (r : Nat) : Nat := (r + 5) / 10

/-- InWin(v, r), inclusive at both ends (R172). -/
def inWin (v r : Nat) : Bool := decide (r - tol r ≤ v ∧ v ≤ r + tol r)

/-- The results of the classification (R173, R86). -/
inductive PulseClass where
  | bitLow
  | bitHigh
  | keypressStart
  | commandStart
  | invalidPulse
  deriving DecidableEq, Repr

/-- Classify(t): the windows in the source's order, the first that holds `t` wins
(R173; UNVERIFIED: the spec's decision D7; unsafe, log entry 19). -/
def classify (t : Nat) : PulseClass :=
  if inWin t Config.timing.bitLow.toNat then .bitLow
  else if inWin t Config.timing.bitHigh.toNat then .bitHigh
  else if inWin t Config.timing.keyMsg.toNat then .keypressStart
  else if inWin t Config.timing.cmdMsg.toNat then .commandStart
  else .invalidPulse

/-- The total duration of a pause: the cached burst length and the pause length, zero-extended to 16 bits (R170, R175). -/
def totalDuration (lastBurst pauseLength : PulseLength) : Ticks :=
  lastBurst.zeroExtend 16 + pauseLength.zeroExtend 16

/-- SYNC_MIN: the lower tolerance bound of T_SYNC_REF (R176). -/
def syncMin : Nat := Config.syncRef.toNat - tol Config.syncRef.toNat

end Sys2Proof.Machine
end

