-- ==== Sys2Proof/Machine/Flags.lean ====
section
/-! DEFINITION. The core has no flag register (10_state.md R38): an operation's only condition is the OK bit of its
answer, and its only value DOUT. This file holds every form of answer (30_encoding.md R83, R85) and the enumeration
codes (R86). -/

namespace Sys2Proof.Machine

/-! ### Answers -/

/-- OK with no DOUT result; DOUT is then 0 (R15; no claim may read it, log entry 5). -/
def State.answer (s : State) (ok : Bool) : State := s.respond ok 0

/-- OK = 1 with a DOUT result. -/
def State.answerWord (s : State) (dout : Word) : State := s.respond true dout

/-- A read's answer: OK = 1 and the element laid out on DOUT, or OK = 0 and DOUT = 0 (R110, R124; no claim may read DOUT
when OK = 0, log entry 5). -/
def State.answerRead {α : Type} (s : State) (layout : α → Word) (r : Option α) : State :=
  match r with
  | some e => s.respond true (layout e)
  | none => s.respond false 0

/-- The free bytes of a queue on DOUT (R85, R110). -/
def freeWord {α : Type} (sh : QueueShape) (q : List α) : Word := BitVec.ofNat 32 (qFree sh q)

/-! ### Enumeration codes (R86) -/

/-- The step results of R135. -/
inductive StepResult where
  | notSending
  | started
  | inProgress
  | ended
  deriving DecidableEq, Repr

/-- NotSending 0, Started 1, InProgress 2, Ended 3. -/
def StepResult.code : StepResult → Word
  | .notSending => 0
  | .started => 1
  | .inProgress => 2
  | .ended => 3

/-- Idle 0 to IntervalPause 6. -/
def EncStatus.code : EncStatus → Nat
  | .idle => 0
  | .leadBurst => 1
  | .leadPause => 2
  | .dataBitBurst => 3
  | .dataBitPause => 4
  | .trailingBurst => 5
  | .intervalPause => 6

/-- None 0, Command 1, Keypress 2. -/
def MessageKind.code : MessageKind → Nat
  | .none => 0
  | .command => 1
  | .keypress => 2

/-- BitLow 0 to InvalidPulse 4. -/
def PulseClass.code : PulseClass → Nat
  | .bitLow => 0
  | .bitHigh => 1
  | .keypressStart => 2
  | .commandStart => 3
  | .invalidPulse => 4

/-- Off 0, Burst 1, Pause 2. -/
def OutMode.code : OutMode → Nat
  | .off => 0
  | .burst => 1
  | .pause => 2

end Sys2Proof.Machine
end

