-- ==== Sys2Proof/Machine/Decoder.lean ====
section
/-! DEFINITION. The Receive Decoder operations (42_decoder.md R177 to R193). -/

namespace Sys2Proof.Machine

/-! ### Resets -/

/-- ResetCounters(): the bit and byte counters and nothing else
(R177; UNVERIFIED: the spec's decision D12; unsafe, log entry 19). -/
def resetCounters (d : ReceiverState) : ReceiverState :=
  { d with bitAccumulator := 0, pendingBitCount := 0, byteIndex := 0 }

/-- Reinit(): every ReceiverState field to its reset value
(R178; UNVERIFIED: the spec's decision D11; unsafe, log entry 19). -/
def reinit (_d : ReceiverState) : ReceiverState := ReceiverState.reset

/-- DEC.RESET: RCV is not touched (R179). -/
def execDecReset (s : State) : Outcome :=
  inContext .pollOnly "DEC.RESET" s ((s.withDec (reinit s.dec)).answer true)

/-- DEC.ISIDLE (R180; UNVERIFIED: the spec's decision D27; unsafe, log entry 19). -/
def execDecIsidle (s : State) : Outcome :=
  inContext .pollOnly "DEC.ISIDLE" s (s.answer (decide (s.dec.messageKind = .none)))

/-- DEC.TAKE: pops one received command (R181). -/
def execDecTake (s : State) : Outcome :=
  let r := tryRead s.rcv
  inContext .pollOnly "DEC.TAKE" s ((s.withRcv r.2).answerRead wordOfCommand r.1)

/-! ### DEC.ONEVENT (R182 to R193) -/

/-- `min(byteIndex + 1, 255)` (R188). -/
def byteIndexNext (n : Byte) : Byte := if n = 255 then 255 else n + 1

/-- The accumulator with one more bit, LSB first (R182, R187). -/
def shiftIn (acc : Byte) (v : Bool) : Byte := (acc >>> 1) ||| (if v then 0x80 else 0)

/-- A completed byte: the 1st and the 3rd are stored, the others discarded (R188, R195). -/
def storeByte (d : ReceiverState) (b : Byte) : Command :=
  if d.byteIndex = 0 then { d.decodedCommand with address := b }
  else if d.byteIndex = 2 then { d.decodedCommand with code := b }
  else d.decodedCommand

/-- ShiftBit(v) (R187, R188). -/
def shiftBit (v : Bool) (d : ReceiverState) : ReceiverState :=
  if h : d.pendingBitCount.val + 1 < 8 then
    { d with
      bitAccumulator := shiftIn d.bitAccumulator v
      pendingBitCount := ⟨d.pendingBitCount.val + 1, h⟩ }
  else
    { d with
      bitAccumulator := 0
      pendingBitCount := 0
      byteIndex := byteIndexNext d.byteIndex
      decodedCommand := storeByte d (shiftIn d.bitAccumulator v) }

/-- An InvalidPulse in Command: full reset when a byte is complete, else the counters only (R191). -/
def resynchronise (d : ReceiverState) : ReceiverState :=
  if 0 < d.byteIndex.toNat then reinit d else resetCounters d

/-- A pause in Command, by the class of its total (R187 to R191). -/
def pauseInCommand (length : PulseLength) (d : ReceiverState) : ReceiverState :=
  match classify (totalDuration d.lastBurstLength length).toNat with
  | .bitLow => shiftBit false d
  | .bitHigh => shiftBit true d
  | .keypressStart => { d with messageKind := .keypress }
  | .commandStart => d
  | .invalidPulse => resynchronise d

/-- A burst in Command: cached (R185), or the trailing burst once 32 bits are consumed (R186). -/
def burstInCommand (length : PulseLength) (d : ReceiverState) : ReceiverState :=
  if 4 ≤ d.byteIndex.toNat then { d with messageKind := .none } else { d with lastBurstLength := length }

/-- An event in Command (R185 to R191). -/
def eventInCommand (e : PulseEvent) (d : ReceiverState) : ReceiverState :=
  if e.isBurst then burstInCommand e.length d else pauseInCommand e.length d

/-- An event in Idle: only a pause of at least SYNC_MIN acts (R183, R184). -/
def eventInIdle (e : PulseEvent) (d : ReceiverState) : ReceiverState :=
  if e.isBurst = false ∧ syncMin ≤ e.length.toNat then { resetCounters d with messageKind := .command } else d

/-- The delivery of the held command into RCV, dropped when RCV is full (R192, R194). -/
def deliver (s : State) : State :=
  (s.withRcv (tryWrite Config.rcvShape s.rcv s.dec.decodedCommand).2).withDec { s.dec with messageKind := .none }

/-- An event in Keypress: a burst delivers (R192), a pause changes nothing (R193). -/
def eventInKeypress (e : PulseEvent) (s : State) : State :=
  if e.isBurst then deliver s else s

/-- DEC_ONEVENT of R182. -/
def decOnEventCore (e : PulseEvent) (s : State) : State :=
  match s.dec.messageKind with
  | .none => s.withDec (eventInIdle e s.dec)
  | .command => s.withDec (eventInCommand e s.dec)
  | .keypress => eventInKeypress e s

/-- DEC.ONEVENT (R182). -/
def execDecOnevent (e : PulseEvent) (s : State) : Outcome :=
  inContext .pollOnly "DEC.ONEVENT" s ((decOnEventCore e s).answer true)

end Sys2Proof.Machine
end

