-- ==== Sys2Proof/Machine/Encoder.lean ====
section
/-! DEFINITION. The Transmit Encoder operations (41_encoder.md R131 to R146). Each branch of ENC.STEP is a definition of its
own, named after its rule's transition; a branch answers the state and the step result. -/

namespace Sys2Proof.Machine

/-- ENC.CANACCEPT: OUT has room for one full packet (R131). -/
def execEncCanaccept (s : State) : Outcome :=
  inContext .pollOnly "ENC.CANACCEPT" s (s.answer (qHasRoom Config.outShape s.out))

/-- ENC.ISIDLE: no message is in progress (R132). -/
def execEncIsidle (s : State) : Outcome :=
  inContext .pollOnly "ENC.ISIDLE" s (s.answer (decide (s.enc.messageKind = .none)))

/-- ENC.SUBMIT: builds the packet with its complements and enqueues it, whole or not at all (R133). -/
def execEncSubmit (c : Command) (s : State) : Outcome :=
  let w := tryWrite Config.outShape s.out (packetOfCommand c)
  inContext .pollOnly "ENC.SUBMIT" s ((s.withOut w.2).answer w.1)

/-- The three fields ENC.RESET writes (R134). -/
def encForceIdle (e : EmitterState) : EmitterState :=
  { e with status := .idle, messageKind := .none, repeatCount := 0 }

/-- ENC.RESET: no other field, no primitive, no queue (R134). -/
def execEncReset (s : State) : Outcome :=
  inContext .pollOnly "ENC.RESET" s ((s.withEnc (encForceIdle s.enc)).answer true)

/-! ### ENC.STEP (R135 to R146) -/

/-- The encoder enters a status. -/
def State.encEnter (s : State) (status : EncStatus) : State := s.withEnc { s.enc with status := status }

/-- STEP in Idle: starts the oldest packet, if there is one (R136). -/
def encStart (s : State) : State × StepResult :=
  match s.out with
  | [] => (s, .notSending)
  | p :: rest =>
    let s := s.withOut rest
    let s := s.withEnc
      { s.enc with packetBuffer := p, currentByte := 0, pendingBitCount := 8, messageKind := .command }
    ((startBurst s Config.timing.leadBurst).encEnter .leadBurst, .started)

/-- LeadBurst to LeadPause (R138). -/
def encLeadPause (s : State) : State × StepResult :=
  let total := if s.enc.messageKind = .command then Config.timing.cmdMsg else Config.timing.keyMsg
  ((startPause s (total - Config.timing.leadBurst)).encEnter .leadPause, .inProgress)

/-- To DataBitBurst: a bit-start burst (R139, R142). -/
def encBitBurst (s : State) : State × StepResult :=
  ((startBurst s Config.timing.bitStart).encEnter .dataBitBurst, .inProgress)

/-- To TrailingBurst (R140, R142). -/
def encTrailingBurst (s : State) : State × StepResult :=
  ((startBurst s Config.timing.trailBurst).encEnter .trailingBurst, .inProgress)

/-- LeadPause to DataBitBurst for a command message (R139), else to TrailingBurst (R140). -/
def encAfterLeadPause (s : State) : State × StepResult :=
  if s.enc.messageKind = .command then encBitBurst s else encTrailingBurst s

/-- The data bit at the encoder's position: bit `8 - pendingBitCount` of `packetBuffer[currentByte]` (R141). At a position
the packet does not have the spec states no value: a free value (log entry 9). -/
def encDataBit (e : EmitterState) : Bool :=
  if e.currentByte.val < 4 ∧ 0 < e.pendingBitCount.val then
    (packetByte e.packetBuffer e.currentByte.val).getLsbD (8 - e.pendingBitCount.val)
  else
    Config.freeBit e.currentByte e.pendingBitCount (wordOfPacket e.packetBuffer)

/-- `pendingBitCount - 1` (R141); free where it is 0 (log entry 9). -/
def encBitCountLess (e : EmitterState) : Fin 9 :=
  if 0 < e.pendingBitCount.val then ⟨e.pendingBitCount.val - 1, by omega⟩ else Config.freeBitCount e.currentByte

/-- `currentByte + 1` (R141); free where it is 4 (log entry 9). -/
def encNextByte (e : EmitterState) : Fin 5 :=
  if h : e.currentByte.val < 4 then ⟨e.currentByte.val + 1, by omega⟩ else Config.freeByteIndex (encBitCountLess e)

/-- The bit position advances (R141): within the byte, or to the next byte, or past the last one. -/
def encAdvanceBit (e : EmitterState) : EmitterState :=
  if encBitCountLess e = 0 then
    { e with
      currentByte := encNextByte e
      pendingBitCount := if e.currentByte.val + 1 < 4 then 8 else 0 }
  else
    { e with pendingBitCount := encBitCountLess e }

/-- The pause that completes a bit: the bit's total minus the bit-start burst (R141). -/
def bitPause (b : Bool) : Ticks :=
  (if b then Config.timing.bitHigh else Config.timing.bitLow) - Config.timing.bitStart

/-- DataBitBurst to DataBitPause (R141). -/
def encBitPause (s : State) : State × StepResult :=
  let b := encDataBit s.enc
  let s := s.withEnc (encAdvanceBit s.enc)
  ((startPause s (bitPause b)).encEnter .dataBitPause, .inProgress)

/-- DataBitPause to DataBitBurst while bits remain, else to TrailingBurst (R142). -/
def encAfterBitPause (s : State) : State × StepResult :=
  if s.enc.currentByte.val < 4 then encBitBurst s else encTrailingBurst s

/-- TrailingBurst of a command message: the gap before its keypress message (R143). -/
def encKeypressGap (s : State) : State × StepResult :=
  let s := s.withEnc { s.enc with messageKind := .keypress }
  ((startPause s Config.timing.cmdKeyGap).encEnter .intervalPause, .inProgress)

/-- TrailingBurst of a keypress message with repeats left (R144). -/
def encRepeat (s : State) : State × StepResult :=
  let s := s.withEnc { s.enc with repeatCount := s.enc.repeatCount - 1 }
  ((startPause s Config.autorepeatPause).encEnter .intervalPause, .inProgress)

/-- TrailingBurst of the last keypress message: the transmission ends (R145). -/
def encEnd (s : State) : State × StepResult :=
  let s := stopOutput s
  (s.withEnc { s.enc with status := .idle, messageKind := .none }, .ended)

/-- What follows a TrailingBurst (R143 to R145). -/
def encAfterTrailingBurst (s : State) : State × StepResult :=
  if s.enc.messageKind = .command then encKeypressGap s
  else if s.enc.repeatCount ≠ 0 then encRepeat s
  else encEnd s

/-- IntervalPause to LeadBurst (R146). -/
def encAfterInterval (s : State) : State × StepResult :=
  ((startBurst s Config.timing.leadBurst).encEnter .leadBurst, .inProgress)

/-- The transition out of each status (R136, R138 to R146). -/
def encTransition (s : State) : State × StepResult :=
  match s.enc.status with
  | .idle => encStart s
  | .leadBurst => encLeadPause s
  | .leadPause => encAfterLeadPause s
  | .dataBitBurst => encBitPause s
  | .dataBitPause => encAfterBitPause s
  | .trailingBurst => encAfterTrailingBurst s
  | .intervalPause => encAfterInterval s

/-- ENC_STEP of R135: the operand is recorded; outside Idle a nonzero operand changes nothing else (R137). -/
def encStepCore (rt : Ticks) (s : State) : State × StepResult :=
  let s := s.withEnc { s.enc with remainingTicks := rt }
  if s.enc.status ≠ .idle ∧ rt ≠ 0 then (s, .inProgress) else encTransition s

/-- ENC.STEP: OK = 1, DOUT the step result's code (R135). -/
def execEncStep (rt : Ticks) (s : State) : Outcome :=
  let r := encStepCore rt s
  inContext .pollOnly "ENC.STEP" s (r.1.answerWord r.2.code)

end Sys2Proof.Machine
end

