-- ==== Sys2Proof/Machine/Queue.lean ====
section
/-! DEFINITION. The twelve bounded queue operations (40_queue.md R111 to R122). Overflow is silent (R123); a failed read
changes no queue (R124). -/

namespace Sys2Proof.Machine

/-! ### OUT (R111 to R114) -/

/-- OUT.TRYWRITE: the four bytes are stored as given (R111). -/
def execOutTrywrite (p : Packet) (s : State) : Outcome :=
  let w := tryWrite Config.outShape s.out p
  inContext .pollOnly "OUT.TRYWRITE" s ((s.withOut w.2).answer w.1)

/-- OUT.TRYREAD (R112). -/
def execOutTryread (s : State) : Outcome :=
  let r := tryRead s.out
  inContext .pollOnly "OUT.TRYREAD" s ((s.withOut r.2).answerRead wordOfPacket r.1)

/-- OUT.CLEAR (R113). -/
def execOutClear (s : State) : Outcome :=
  inContext .both "OUT.CLEAR" s ((s.withOut []).answer true)

/-- OUT.FREESPACE (R114). -/
def execOutFreespace (s : State) : Outcome :=
  inContext .both "OUT.FREESPACE" s (s.answerWord (freeWord Config.outShape s.out))

/-! ### CAP (R115 to R118) -/

/-- CAP.TRYWRITE: the event is stored as given, and lost when CAP is full (R115). -/
def execCapTrywrite (e : PulseEvent) (s : State) : Outcome :=
  let w := tryWrite Config.capShape s.cap e
  inContext .isrOnly "CAP.TRYWRITE" s ((s.withCap w.2).answer w.1)

/-- CAP.TRYREAD (R116). -/
def execCapTryread (s : State) : Outcome :=
  let r := tryRead s.cap
  inContext .pollOnly "CAP.TRYREAD" s ((s.withCap r.2).answerRead wordOfEvent r.1)

/-- CAP.CLEAR (R117). -/
def execCapClear (s : State) : Outcome :=
  inContext .both "CAP.CLEAR" s ((s.withCap []).answer true)

/-- CAP.FREESPACE (R118). -/
def execCapFreespace (s : State) : Outcome :=
  inContext .both "CAP.FREESPACE" s (s.answerWord (freeWord Config.capShape s.cap))

/-! ### RCV (R119 to R122) -/

/-- RCV.TRYWRITE: injects a command as if it had been decoded (R119). -/
def execRcvTrywrite (c : Command) (s : State) : Outcome :=
  let w := tryWrite Config.rcvShape s.rcv c
  inContext .pollOnly "RCV.TRYWRITE" s ((s.withRcv w.2).answer w.1)

/-- RCV.TRYREAD (R120). -/
def execRcvTryread (s : State) : Outcome :=
  let r := tryRead s.rcv
  inContext .pollOnly "RCV.TRYREAD" s ((s.withRcv r.2).answerRead wordOfCommand r.1)

/-- RCV.CLEAR (R121). -/
def execRcvClear (s : State) : Outcome :=
  inContext .both "RCV.CLEAR" s ((s.withRcv []).answer true)

/-- RCV.FREESPACE (R122). -/
def execRcvFreespace (s : State) : Outcome :=
  inContext .both "RCV.FREESPACE" s (s.answerWord (freeWord Config.rcvShape s.rcv))

end Sys2Proof.Machine
end

