-- ==== Sys2Proof/Machine/Timer.lean ====
section
/-! DEFINITION. The interrupt-side operation TMR.TICK (43_timer.md R210), what the Tick Source presents to the core (R211,
R226), and the pseudo-operations of the assembler form (30_encoding.md R91), none of which is an operation of the core. -/

namespace Sys2Proof.Machine

/-- The countdown after one tick: it stays 0 at 0 (R210; UNVERIFIED: the spec's decision D17; unsafe, log entry 27). -/
def countdownNext (t : Ticks) : Ticks := if t = 0 then 0 else t - 1

/-- TMR.TICK: OUTMODE is not changed (R210). -/
def execTmrTick (s : State) : Outcome :=
  let t := countdownNext s.countdown
  inContext .isrOnly "TMR.TICK" s ((s.withCountdown t).answerWord (wordOfTicks t))

/-! ### What the Tick Source presents (R211, R226) -/

/-- The event of an edge: the measured length, saturated at LEN_MAX (R211). The measuring itself is outside the core
(log entry 22). -/
def capturedEvent (isBurst : Bool) (measured : Nat) : PulseEvent :=
  { isBurst, length := BitVec.ofNat 15 (min measured Config.lenMax) }

/-- The presentation of one edge: `I: CAP.TRYWRITE` (R211, R226). -/
def edgePresentation (isBurst : Bool) (measured : Nat) : Presentation :=
  present .isr (.capTrywrite (capturedEvent isBurst measured))

/-- The presentation of one carrier period: `I: TMR.TICK` (R210, R226). -/
def tickPresentation : Presentation := present .isr .tmrTick

/-! ### Pseudo-operations (R91), as the presentations they stand for in a state -/

/-- `SEND a,c`: ENC.CANACCEPT, then ENC.SUBMIT if it answers 1. -/
def sendPresentations (c : Command) (s : State) : List Presentation :=
  present .poll .encCanaccept ::
    (if qHasRoom Config.outShape s.out then [present .poll (.encSubmit c)] else [])

/-- `STEPCD`: ENC.STEP with the live countdown (R91, R256). -/
def stepcdPresentation (s : State) : Presentation := present .poll (.encStep s.countdown)

/-- `RUNPULSE`: ticks until the countdown is 0, then STEPCD. -/
def runPulsePresentations (s : State) : List Presentation :=
  List.replicate s.countdown.toNat tickPresentation ++ [present .poll (.encStep 0)]

end Sys2Proof.Machine
end

