-- ==== Sys2Proof/Machine/Dispatch.lean ====
section
/-! DEFINITION. One arm per operation of the opcode map (30_encoding.md R83), in its order. -/

namespace Sys2Proof.Machine

def exec (i : Instr) (s : State) : Host.Outcome State Fault Refusal :=
  match i with
  | .outTrywrite p => Sys2Proof.Machine.execOutTrywrite p s
  | .outTryread => Sys2Proof.Machine.execOutTryread s
  | .outClear => Sys2Proof.Machine.execOutClear s
  | .outFreespace => Sys2Proof.Machine.execOutFreespace s
  | .capTrywrite e => Sys2Proof.Machine.execCapTrywrite e s
  | .capTryread => Sys2Proof.Machine.execCapTryread s
  | .capClear => Sys2Proof.Machine.execCapClear s
  | .capFreespace => Sys2Proof.Machine.execCapFreespace s
  | .rcvTrywrite c => Sys2Proof.Machine.execRcvTrywrite c s
  | .rcvTryread => Sys2Proof.Machine.execRcvTryread s
  | .rcvClear => Sys2Proof.Machine.execRcvClear s
  | .rcvFreespace => Sys2Proof.Machine.execRcvFreespace s
  | .encCanaccept => Sys2Proof.Machine.execEncCanaccept s
  | .encIsidle => Sys2Proof.Machine.execEncIsidle s
  | .encSubmit c => Sys2Proof.Machine.execEncSubmit c s
  | .encReset => Sys2Proof.Machine.execEncReset s
  | .encStep rt => Sys2Proof.Machine.execEncStep rt s
  | .decIsidle => Sys2Proof.Machine.execDecIsidle s
  | .decTake => Sys2Proof.Machine.execDecTake s
  | .decReset => Sys2Proof.Machine.execDecReset s
  | .decOnevent e => Sys2Proof.Machine.execDecOnevent e s
  | .tmrTick => Sys2Proof.Machine.execTmrTick s

end Sys2Proof.Machine
end

