-- ==== Sys2Proof/Machine/Step.lean ====
section
/-! DEFINITION. One step of the core (30_encoding.md R80): it takes the next presentation from its port, decodes it and
completes it in one atomic transition (20_memory.md R70). -/

namespace Sys2Proof.Machine

/-- One step. With nothing presented the core waits and nothing changes (R237, R251; DEDUCED, safe, log entry 16); an
undefined OP is refused (R88). -/
def step (s : State) : Host.Outcome State Fault Refusal :=
  match fetch s with
  | none => .next s
  | some (p, s') =>
    match decode p.op p.din with
    | .ok i => exec i s'
    | .error _ => .refused (.undefinedOp p.op)

/-- The state with a table word presented next (log entries 1 and 20): the core fetches from no memory (R76), so the operation
is put in front of the waiting presentations. -/
def State.withFetchWord (s : State) (nbits w : Nat) : State :=
  { s with port := presentTableWord nbits w :: s.port }

end Sys2Proof.Machine
end

