-- ==== Sys2Proof/Safety.lean ====
section
/-! DEFINITION. What claims about the core speak of: the invariants (10_state.md R21, R31, R36), runs of operations, the trace
of a packet (41_encoder.md R148), the duties of the dispatch loop (70_reset_and_hazards.md R253 to R257), quiescence and
the observation of a run (R265). -/

namespace Sys2Proof.Machine

/-! ### Invariants -/

/-- Every queue holds at most its capacity (R21, R22). -/
abbrev QueueBounds (s : State) : Prop :=
  s.out.length ≤ 2 ∧ s.cap.length ≤ 16 ∧ s.rcv.length ≤ 8

/-- The four invariants R31 states of reachable encoder states (their bounds on `currentByte` and `pendingBitCount` hold by
the types of the two fields; they are written out all the same). -/
abbrev EncReachable (e : EmitterState) : Prop :=
  (e.status = .idle ↔ e.messageKind = .none) ∧
  (e.status = .dataBitBurst ∨ e.status = .dataBitPause → e.messageKind = .command) ∧
  (e.currentByte.val ≤ 4 ∧ e.pendingBitCount.val ≤ 8) ∧
  (e.status = .dataBitBurst → e.currentByte.val ≤ 3 ∧ 1 ≤ e.pendingBitCount.val)

/-- R31 made inductive: where the position is still to be used, it is a position of the packet. DEDUCED from the branches
R136 to R146. -/
abbrev EncInv (e : EmitterState) : Prop :=
  EncReachable e ∧
  (e.status = .intervalPause → e.messageKind = .keypress) ∧
  (e.status = .leadBurst ∨ e.status = .leadPause → e.messageKind = .command →
    e.currentByte.val = 0 ∧ e.pendingBitCount.val = 8) ∧
  (e.status = .dataBitPause → e.currentByte.val < 4 → 1 ≤ e.pendingBitCount.val)

/-- The level the last primitive of a trace left on the output port (R36); Off before the first one. -/
def modeOfTrace (tr : List TraceEntry) : OutMode :=
  match tr.getLast? with
  | none => .off
  | some (.burst _) => .burst
  | some (.pause _) => .pause
  | some .stop => .off

/-- The invariant every step keeps. -/
abbrev Inv (s : State) : Prop :=
  QueueBounds s ∧ EncInv s.enc ∧ s.outMode = modeOfTrace s.trace

/-! ### Runs -/

/-- Operations one after another, all from the context on the port; stops at the first that stops. -/
def execAll : List Instr → State → Outcome
  | [], s => .next s
  | i :: rest, s =>
    match exec i s with
    | .next t => execAll rest t
    | .fault r => .fault r
    | .refused r => .refused r

/-- A run of the machine over every presentation waiting on its port (R265). -/
def runPort (s : State) : Outcome := Sys2Proof.core.run s.port.length s

/-! ### The trace of one packet (R148) and what a receiver is fed (R199) -/

/-- Data bit `k` on the wire: a burst and a pause (R148). -/
def dataBitPulses (p : Packet) (k : Nat) : List TraceEntry :=
  [.burst 22, .pause (if wireBit p k then 64 else 21)]

/-- The command message, lead to trailing burst (R148, R150). -/
def commandPulses (p : Packet) : List TraceEntry :=
  [.burst 342, .pause 171] ++ (List.range 32).flatMap (dataBitPulses p) ++ [.burst 22]

/-- A keypress message (R148). -/
def keypressPulses : List TraceEntry := [.burst 342, .pause 83, .burst 22]

/-- One repeat: the autorepeat pause and a keypress message (R148). -/
def repeatPulses : List TraceEntry := .pause Config.autorepeatPause :: keypressPulses

/-- The pulses of a packet with `r` repeats, without the final Stop (R148). -/
def packetPulses (p : Packet) (r : Nat) : List TraceEntry :=
  commandPulses p ++ [.pause 1510] ++ keypressPulses ++ (List.replicate r repeatPulses).flatten

/-- The trace of a packet with `r` repeats (R148). -/
def packetTrace (p : Packet) (r : Nat) : List TraceEntry := packetPulses p r ++ [.stop]

/-- The repeats still to come and the final Stop, after a keypress message's trailing burst (R144, R145). -/
def pulsesAfterKeypress (r : Nat) : List TraceEntry := (List.replicate r repeatPulses).flatten ++ [.stop]

/-- What follows the last data bit's pause (R142, R143, R146). -/
def pulsesAfterData (r : Nat) : List TraceEntry :=
  [.burst 22, .pause 1510] ++ keypressPulses ++ pulsesAfterKeypress r

/-- The data bits from wire bit `k` on (R148). -/
def dataPulsesFrom (p : Packet) (k : Nat) : List TraceEntry :=
  (List.range' k (32 - k)).flatMap (dataBitPulses p)

/-- The wire bit at the encoder's position (R63, R141). -/
def wirePosition (e : EmitterState) : Nat := 8 * e.currentByte.val + (8 - e.pendingBitCount.val)

/-- What the rest of the transmission will append to the trace (R148), from each status. -/
def remainingPulses (e : EmitterState) : List TraceEntry :=
  let r := e.repeatCount.toNat
  let p := e.packetBuffer
  match e.status with
  | .idle => []
  | .leadBurst =>
    if e.messageKind = .command then .pause 171 :: (dataPulsesFrom p 0 ++ pulsesAfterData r)
    else [.pause 83, .burst 22] ++ pulsesAfterKeypress r
  | .leadPause =>
    if e.messageKind = .command then dataPulsesFrom p 0 ++ pulsesAfterData r
    else .burst 22 :: pulsesAfterKeypress r
  | .dataBitBurst =>
    .pause (if wireBit p (wirePosition e) then 64 else 21) ::
      (dataPulsesFrom p (wirePosition e + 1) ++ pulsesAfterData r)
  | .dataBitPause =>
    if e.currentByte.val < 4 then dataPulsesFrom p (wirePosition e) ++ pulsesAfterData r else pulsesAfterData r
  | .trailingBurst =>
    if e.messageKind = .command then .pause 1510 :: (keypressPulses ++ pulsesAfterKeypress r)
    else pulsesAfterKeypress r
  | .intervalPause => keypressPulses ++ pulsesAfterKeypress r

/-- The ticks a trace entry stands for. -/
def entryTicks : TraceEntry → Nat
  | .burst n => n.toNat
  | .pause n => n.toNat
  | .stop => 0

/-- The sum of the pulses of a trace (R150). -/
def traceTicks (tr : List TraceEntry) : Nat := (tr.map entryTicks).sum

/-- The capture event of a pulse received without jitter (R199): its length as the capture hardware presents it, saturated at
the sentinel (R84, R211). -/
def entryEvent : TraceEntry → Option PulseEvent
  | .burst n => some (capturedEvent true n.toNat)
  | .pause n => some (capturedEvent false n.toNat)
  | .stop => none

/-- The events of a trace, in order (R199). -/
def traceEvents (tr : List TraceEntry) : List PulseEvent := tr.filterMap entryEvent

/-- Bursts and pauses alternate, as on a real line; the core does not enforce it (R212). -/
def alternates : List PulseEvent → Bool
  | [] => true
  | [_] => true
  | a :: b :: rest => (a.isBurst != b.isBurst) && alternates (b :: rest)

/-! ### First in, first out (R71) -/

/-- What went into a queue and what came out of it since the last CLEAR. -/
structure FifoRecord (α : Type) where
  written : List α
  readOut : List α
  deriving DecidableEq, Repr

/-- Whether the last answer on the port has OK = 1. -/
def answeredOk (s : State) : Bool := (s.results.getLast?.map (·.ok)).getD false

/-- DOUT of the last answer on the port. -/
def answeredWord (s : State) : Word := (s.results.getLast?.map (·.dout)).getD 0

/-- The record grows by a write when it is answered OK. -/
def FifoRecord.wrote {α : Type} (h : FifoRecord α) (ok : Bool) (e : α) : FifoRecord α :=
  if ok then { h with written := h.written ++ [e] } else h

/-- The record grows by a read when it is answered OK. -/
def FifoRecord.took {α : Type} (h : FifoRecord α) (ok : Bool) (e : α) : FifoRecord α :=
  if ok then { h with readOut := h.readOut ++ [e] } else h

/-- OUT's record after an operation that ended in state `t`: its writers and readers are those of R41. -/
def outRecord (h : FifoRecord Packet) (i : Instr) (t : State) : FifoRecord Packet :=
  match i with
  | .outTrywrite p => h.wrote (answeredOk t) p
  | .encSubmit c => h.wrote (answeredOk t) (packetOfCommand c)
  | .outTryread => h.took (answeredOk t) (packetOfWord (answeredWord t))
  | .encStep _ => h.took (answeredWord t == StepResult.started.code) t.enc.packetBuffer
  | .outClear => { written := [], readOut := [] }
  | .outFreespace | .capTrywrite _ | .capTryread | .capClear | .capFreespace | .rcvTrywrite _ | .rcvTryread
  | .rcvClear | .rcvFreespace | .encCanaccept | .encIsidle | .encReset | .decIsidle | .decTake | .decReset
  | .decOnevent _ | .tmrTick => h

/-- CAP's record after an operation that ended in state `t`. -/
def capRecord (h : FifoRecord PulseEvent) (i : Instr) (t : State) : FifoRecord PulseEvent :=
  match i with
  | .capTrywrite e => h.wrote (answeredOk t) e
  | .capTryread => h.took (answeredOk t) (eventOfWord (answeredWord t))
  | .capClear => { written := [], readOut := [] }
  | .outTrywrite _ | .outTryread | .outClear | .outFreespace | .capFreespace | .rcvTrywrite _ | .rcvTryread
  | .rcvClear | .rcvFreespace | .encCanaccept | .encIsidle | .encSubmit _ | .encReset | .encStep _
  | .decIsidle | .decTake | .decReset | .decOnevent _ | .tmrTick => h

/-- RCV's record after an operation from state `s` that ended in state `t`; a delivery is written when RCV has room
(R192, R194). -/
def rcvRecord (h : FifoRecord Command) (s : State) (i : Instr) (t : State) : FifoRecord Command :=
  match i with
  | .rcvTrywrite c => h.wrote (answeredOk t) c
  | .decOnevent e =>
    h.wrote (s.dec.messageKind == .keypress && e.isBurst && decide (s.rcv.length < 8)) s.dec.decodedCommand
  | .rcvTryread => h.took (answeredOk t) (commandOfWord (answeredWord t))
  | .decTake => h.took (answeredOk t) (commandOfWord (answeredWord t))
  | .rcvClear => { written := [], readOut := [] }
  | .outTrywrite _ | .outTryread | .outClear | .outFreespace | .capTrywrite _ | .capTryread | .capClear
  | .capFreespace | .rcvFreespace | .encCanaccept | .encIsidle | .encSubmit _ | .encReset | .encStep _
  | .decIsidle | .decReset | .tmrTick => h

/-! ### Duties of the dispatch loop (R253 to R257): premises of claims, never conditions of a step (D26) -/

/-- What the duties need to remember of the presentations so far. -/
structure DutyRecord where
  /-- a transmission ended and CAP.CLEAR has not been issued since (R254) -/
  clearOwed : Bool
  /-- events taken from CAP and not yet given to DEC.ONEVENT, oldest first (R257) -/
  taken : List PulseEvent
  deriving DecidableEq, Repr

/-- Nothing is owed at reset. -/
def dutyAtReset : DutyRecord := { clearOwed := false, taken := [] }

/-- Every event taken from CAP has been given to DEC.ONEVENT: with `keepsDuties` at each operation, which gives an event at most
once and in order, this at the end of a run is R257's "exactly once". -/
abbrev DutyRecord.AllEventsGiven (d : DutyRecord) : Prop := d.taken = []

/-- Whether an operation keeps the duties in a state.
Mutual exclusion (R253) is taken as the other machine's messageKind being None at the operation, which is what ENC.ISIDLE or
DEC.ISIDLE answers there; that the query was itself presented before is not asked (DESIGN CHOICE, unsafe, log entry 32).
DEC.ONEVENT: mutual exclusion (R253), no event before the clear that is owed (R254), the events in the order they were taken,
none twice (R257).
CAP.TRYREAD: events are taken only while mutual exclusion lets the decoder run, that is while the encoder is idle (R257), and
not while a clear is owed, when CAP still holds the edges of the transmission (DEDUCED from the source's sentence in R254;
unsafe, log entry 29).
ENC.STEP: mutual exclusion (R253) and the live countdown: the operand is COUNTDOWN at the STEP itself, so no TMR.TICK falls
between the loop's read and the STEP (R256 says "read in that iteration" only; DESIGN CHOICE, unsafe, log entry 28).
ENC.SUBMIT: the capacity check (R255), taken as room in OUT at the SUBMIT, which is what ENC.CANACCEPT answers there; that
ENC.CANACCEPT was itself presented before is not asked (DESIGN CHOICE, unsafe, log entry 30). -/
def keepsDuties (d : DutyRecord) (s : State) (i : Instr) : Bool :=
  match i with
  | .decOnevent e => s.enc.messageKind == .none && !d.clearOwed && d.taken.head? == some e
  | .encStep rt => s.dec.messageKind == .none && rt == s.countdown
  | .capTryread => s.enc.messageKind == .none && !d.clearOwed
  | .encSubmit _ => qHasRoom Config.outShape s.out
  | .outTrywrite _ | .outTryread | .outClear | .outFreespace | .capTrywrite _ | .capClear
  | .capFreespace | .rcvTrywrite _ | .rcvTryread | .rcvClear | .rcvFreespace | .encCanaccept | .encIsidle
  | .encReset | .decIsidle | .decTake | .decReset | .tmrTick => true

/-- The record after an operation issued in a state. A CAP.CLEAR discharges the clear that is owed from either context, as R232
allows both; R254 names the dispatch loop's (DESIGN CHOICE, safe, log entry 31). -/
def dutyAfter (d : DutyRecord) (s : State) (i : Instr) : DutyRecord :=
  match i with
  | .encStep rt => if (encStepCore rt s).2 = .ended then { d with clearOwed := true } else d
  | .capClear => { d with clearOwed := false }
  | .capTryread => { d with taken := d.taken ++ (tryRead s.cap).1.toList }
  | .decOnevent _ => { d with taken := d.taken.tail }
  | .outTrywrite _ | .outTryread | .outClear | .outFreespace | .capTrywrite _ | .capFreespace
  | .rcvTrywrite _ | .rcvTryread | .rcvClear | .rcvFreespace | .encCanaccept | .encIsidle | .encSubmit _
  | .encReset | .decIsidle | .decTake | .decReset | .tmrTick => d

/-- The encoder or the decoder is idle: what mutual exclusion is for (R253). -/
abbrev NotBothBusy (s : State) : Prop := s.enc.messageKind = .none ∨ s.dec.messageKind = .none

/-! ### End of a run (R265) -/

/-- A quiescent state (R265). That no refusal mark is set is that the run's outcome is a next state (log entry 12). -/
abbrev Quiescent (s : State) : Prop :=
  s.enc.status = .idle ∧ s.out = [] ∧ s.dec.messageKind = .none ∧ s.cap = []

/-- The observation of a run (R265): TRACE, the answers, the final contents of RCV. DOUT is hidden where OK = 0, since no
claim may read it there (93_implementation_defined.md I6). -/
structure Observation where
  trace : List TraceEntry
  answers : List (Bool × Option Word)
  received : List Command
  deriving DecidableEq, Repr

/-- The observation a state holds. -/
def observe (s : State) : Observation :=
  { trace := s.trace
    answers := s.results.map (fun r => (r.ok, if r.ok then some r.dout else none))
    received := s.rcv }

end Sys2Proof.Machine
end

