-- ==== Sys2Proof/Certificates/Slice0/Obligations.lean ====
section
/-! DEFINITION. The statements about the IRTM codec core, from the spec's numbered rules. Each names its rule; the witness of its
hypotheses stands in Sys2Proof/Tests/Slice0.lean. Where an operation's rule gives DOUT no meaning (OK = 0, or an
operation without a result), the statement says that some DOUT is answered and nothing of its value
(93_implementation_defined.md I6, 92_eei_decisions.md D1). -/

open Sys2Proof Sys2Proof.Machine

/-! ## Encoding -/

/-- Decode and encode agree, for every operation and every operand (R83, R84, R85). -/
def Obligations.DecodeOfEncodeIsIdentity : Prop :=
  ∀ i : Instr, i.wellFormed = true → decode (encode i).1 (encode i).2 = .ok i

/-- Encoding what was decoded gives the OP back, and the DIN bits the operation reads (R85, R89). -/
def Obligations.EncodeOfDecodeKeepsReadBits : Prop :=
  ∀ (op : Byte) (din : Word) (i : Instr), decode op din = .ok i → encode i = (op, din &&& dinMask i)

/-- R89: presentations that differ only in unused DIN bits are the same operation; no length exceeds LEN_MAX. -/
def Obligations.UnusedDinBitsAreIgnored : Prop :=
  (∀ (op : Byte) (din din' : Word) (i : Instr),
    decode op din = .ok i → din &&& dinMask i = din' &&& dinMask i → decode op din' = .ok i) ∧
  (∀ e : PulseEvent, e.length.toNat ≤ Config.lenMax)

/-- R88: exactly the OPs outside the opcode map are undefined, and they are refused; so is a wrong context. -/
def Obligations.UndefinedOperationsAreRefused : Prop :=
  (∀ (op : Byte) (din : Word),
    ((∃ e, decode op din = .error e) ↔ op ∉ definedOps) ∧
    ((∃ e, decode op din = .error e) ↔
      (6 ≤ op.toNat / 16 ∨ (op.toNat / 16 ≤ 2 ∧ 4 ≤ op.toNat % 16) ∨ (op.toNat / 16 = 3 ∧ 5 ≤ op.toNat % 16) ∨
        (op.toNat / 16 = 4 ∧ 4 ≤ op.toNat % 16) ∨ (op.toNat / 16 = 5 ∧ 1 ≤ op.toNat % 16)))) ∧
  (∀ (s : State) (p : Presentation) (rest : List Presentation),
    s.port = p :: rest → p.op ∉ definedOps → step s = .refused (.undefinedOp p.op)) ∧
  (∀ (i : Instr) (s : State),
    (ctxRuleOf i).allows s.ctx = false → exec i s = .refused (.wrongContext (mnemonicOf i) s.ctx))

/-- R92: the worked encodings, in both directions, and the packet OUT.TRYREAD returns. -/
def Obligations.WorkedEncodings : Prop :=
  encode (.encSubmit (cmd 0x00 0x46)) = (0x32, 0x00004600) ∧
  decode 0x32 0x00004600 = .ok (.encSubmit (cmd 0x00 0x46)) ∧
  (∃ t, execAll [.encSubmit (cmd 0x00 0x46), .outTryread] State.reset = .next t ∧
    t.results.getLast? = some { ok := true, dout := 0xB946FF00 }) ∧
  wordOfPacket (pkt 0x00 0xFF 0x46 0xB9) = 0xB946FF00 ∧
  encode (.decOnevent (pause 1510)) = (0x43, 0x000005E6) ∧
  decode 0x43 0x000005E6 = .ok (.decOnevent (pause 1510)) ∧
  encode (.decOnevent (burst 22)) = (0x43, 0x00008016) ∧
  decode 0x43 0x00008016 = .ok (.decOnevent (burst 22)) ∧
  encode (.encStep 0) = (0x34, 0x00000000) ∧
  decode 0x34 0x00000000 = .ok (.encStep 0)

/-- R84: the PulseEvent word, its two examples, and the sentinel that stands for every longer measurement. -/
def Obligations.PulseEventWord : Prop :=
  (∀ e : PulseEvent, (eventBits e).getLsbD 15 = e.isBurst ∧ (eventBits e).extractLsb' 0 15 = e.length) ∧
  eventBits (burst 342) = 0x8156 ∧ eventBits (pause 171) = 0x00AB ∧ Config.lenMax = 0x7FFF ∧
  (∀ (b : Bool) (measured : Nat),
    (capturedEvent b measured).isBurst = b ∧
    (capturedEvent b measured).length.toNat = if measured < 0x7FFF then measured else 0x7FFF)

/-- R65 and R85: byte `i` of a packet or a command is bits `[8i+7:8i]`, and the bits a layout does not name are zero. -/
def Obligations.PortByteOrder : Prop :=
  (∀ p : Packet, ∀ i < 4, byteOf (wordOfPacket p) i = packetByte p i) ∧
  (∀ c : Command, byteOf (wordOfCommand c) 0 = c.address ∧ byteOf (wordOfCommand c) 1 = c.code ∧
    (wordOfCommand c).extractLsb' 16 16 = 0) ∧
  (∀ e : PulseEvent, (wordOfEvent e).extractLsb' 0 16 = eventBits e ∧ (wordOfEvent e).extractLsb' 16 16 = 0) ∧
  (∀ t : Ticks, (wordOfTicks t).extractLsb' 0 16 = t ∧ (wordOfTicks t).extractLsb' 16 16 = 0)

/-! ## The step and the reset -/

/-- A step runs the decoded operation of the next presentation, from that presentation's context, with the presentation taken
from the port (R80; log entries 1 and 2). -/
def Obligations.StepRunsTheDecodedOperation : Prop :=
  ∀ (s : State) (p : Presentation) (rest : List Presentation) (i : Instr),
    s.port = p :: rest → decode p.op p.din = .ok i → i.wellFormed = true →
    step s = exec i { s with ctx := p.ctx, port := rest }

/-- With nothing presented the core waits and nothing changes (R251; log entry 16). -/
def Obligations.StepWaitsOnAnEmptyPort : Prop :=
  ∀ s : State, s.port = [] → step s = .next s

/-- R250: every field of the spec's state record at its reset value, whatever the state before. -/
def Obligations.SystemResetState : Prop :=
  ∀ s : State, systemReset s = State.reset ∧
    (systemReset s).out = [] ∧ (systemReset s).cap = [] ∧ (systemReset s).rcv = [] ∧
    (systemReset s).enc =
      { status := .idle, messageKind := .none, remainingTicks := 0, currentByte := 0, pendingBitCount := 0,
        repeatCount := 0, packetBuffer := pkt 0 0 0 0 } ∧
    (systemReset s).dec =
      { messageKind := .none, lastBurstLength := 0, bitAccumulator := 0, pendingBitCount := 0, byteIndex := 0,
        decodedCommand := cmd 0 0 } ∧
    (systemReset s).countdown = 0 ∧ (systemReset s).outMode = .off ∧ (systemReset s).trace = []

/-- What each of the three resets sets and what it leaves (R251), and that after reset the core waits for operations: that a step
with nothing presented changes nothing is the model's reading (DEDUCED, log entry 16). -/
def Obligations.ThreeResets : Prop :=
  (∀ s : State, systemReset s = State.reset) ∧
  (∀ s : State, s.ctx = .poll →
    ∃ d, exec .encReset s =
      .next { s with
        enc := { s.enc with status := .idle, messageKind := .none, repeatCount := 0 }
        results := s.results ++ [⟨true, d⟩] }) ∧
  (∀ s : State, s.ctx = .poll →
    ∃ d, exec .decReset s =
      .next { s with dec := State.reset.dec, results := s.results ++ [⟨true, d⟩] }) ∧
  step State.reset = .next State.reset

/-- The reset state meets the invariant. -/
def Obligations.ResetMeetsTheInvariant : Prop := Inv State.reset

/-- Every step keeps the invariant: queues within their capacities (R21), the encoder's reachable states (R31), and OUTMODE
at the level of the last trace entry (R36). -/
def Obligations.StepKeepsTheInvariant : Prop :=
  ∀ s t : State, Inv s → step s = .next t → Inv t

/-- R31, for every run from reset over every sequence of presentations. -/
def Obligations.ReachableEncoderStates : Prop :=
  ∀ (ps : List Presentation) (k : Nat) (t : State),
    Sys2Proof.core.run k { State.reset with port := ps } = .next t → EncReachable t.enc

/-! ## Contexts and completion -/

/-- R232: the context table; from an allowed context every operation completes, from another it is refused. -/
def Obligations.ContextTable : Prop :=
  (∀ (i : Instr) (s : State), s.ctx = .poll → (i = .tmrTick ∨ ∃ e, i = .capTrywrite e) →
    exec i s = .refused (.wrongContext (mnemonicOf i) .poll)) ∧
  (∀ (i : Instr) (s : State), s.ctx = .poll → i ≠ .tmrTick → (∀ e, i ≠ .capTrywrite e) →
    ∃ t, exec i s = .next t) ∧
  (∀ (i : Instr) (s : State), s.ctx = .isr →
    (i = .tmrTick ∨ (∃ e, i = .capTrywrite e) ∨
      i ∈ [Instr.outClear, .capClear, .rcvClear, .outFreespace, .capFreespace, .rcvFreespace]) →
    ∃ t, exec i s = .next t) ∧
  (∀ (i : Instr) (s : State), s.ctx = .isr → i ≠ .tmrTick → (∀ e, i ≠ .capTrywrite e) →
    i ∉ [Instr.outClear, .capClear, .rcvClear, .outFreespace, .capFreespace, .rcvFreespace] →
    exec i s = .refused (.wrongContext (mnemonicOf i) .isr))

/-- Every operation from an allowed context completes in every state, gives exactly one answer, and takes nothing else from
the port (R80, R220). -/
def Obligations.EveryOperationCompletes : Prop :=
  ∀ (i : Instr) (s : State), (ctxRuleOf i).allows s.ctx = true →
    ∃ t r, exec i s = .next t ∧ t.results = s.results ++ [r] ∧ t.port = s.port ∧ t.ctx = s.ctx

/-! ## Who writes what -/

/-- R39: the encoder's state is written by ENC.STEP and ENC.RESET only, the decoder's by DEC.ONEVENT and DEC.RESET only, no
queue element is mutated in place, and each queue and each part of the port state is written only by the operations whose
rules name it (the writers of R41). -/
def Obligations.OwnershipOfEveryField : Prop :=
  ∀ (i : Instr) (s t : State), exec i s = .next t →
    (i ≠ .encReset → (∀ rt, i ≠ .encStep rt) → t.enc = s.enc) ∧
    (i ≠ .decReset → (∀ e, i ≠ .decOnevent e) → t.dec = s.dec) ∧
    (t.out = s.out ∨ t.out = [] ∨ t.out = s.out.tail ∨ ∃ p, t.out = s.out ++ [p]) ∧
    (t.cap = s.cap ∨ t.cap = [] ∨ t.cap = s.cap.tail ∨ ∃ e, t.cap = s.cap ++ [e]) ∧
    (t.rcv = s.rcv ∨ t.rcv = [] ∨ t.rcv = s.rcv.tail ∨ ∃ c, t.rcv = s.rcv ++ [c]) ∧
    (t.out ≠ s.out → (∃ c, i = .encSubmit c) ∨ (∃ p, i = .outTrywrite p) ∨ (∃ rt, i = .encStep rt) ∨
      i = .outTryread ∨ i = .outClear) ∧
    (t.cap ≠ s.cap → (∃ e, i = .capTrywrite e) ∨ i = .capTryread ∨ i = .capClear) ∧
    (t.rcv ≠ s.rcv → (∃ e, i = .decOnevent e) ∨ (∃ c, i = .rcvTrywrite c) ∨ i = .decTake ∨ i = .rcvTryread ∨
      i = .rcvClear) ∧
    (t.countdown ≠ s.countdown → (∃ rt, i = .encStep rt) ∨ i = .tmrTick) ∧
    (t.outMode ≠ s.outMode ∨ t.trace ≠ s.trace → ∃ rt, i = .encStep rt)

/-- R130: only ENC.STEP calls a primitive; a STEP that changes the status calls exactly one, StopOutput when it ends the
transmission and StartBurst or StartPause otherwise; any other STEP calls none. -/
def Obligations.OnePrimitivePerTransition : Prop :=
  (∀ (i : Instr) (s t : State), exec i s = .next t → (∀ rt, i ≠ .encStep rt) →
    t.trace = s.trace ∧ t.outMode = s.outMode) ∧
  (∀ (rt : Ticks) (s t : State), exec (.encStep rt) s = .next t →
    (t.enc.status = s.enc.status →
      t.trace = s.trace ∧ t.outMode = s.outMode ∧ t.countdown = s.countdown ∧
      ∃ code, (code = 0 ∨ code = 2) ∧ t.results = s.results ++ [⟨true, code⟩]) ∧
    (t.enc.status ≠ s.enc.status →
      ((∃ n, t.trace = s.trace ++ [.burst n] ∧ t.outMode = .burst ∧ t.countdown = n) ∨
        (∃ n, t.trace = s.trace ++ [.pause n] ∧ t.outMode = .pause ∧ t.countdown = n)) ∧
        (∃ code, (code = 1 ∨ code = 2) ∧ t.results = s.results ++ [⟨true, code⟩]) ∨
      (t.trace = s.trace ++ [.stop] ∧ t.outMode = .off ∧ t.countdown = s.countdown ∧
        t.results = s.results ++ [⟨true, 3⟩])))

/-- No operation raises `repeatCount` (R29). -/
def Obligations.RepeatCountNeverRises : Prop :=
  ∀ (i : Instr) (s t : State), exec i s = .next t → t.enc.repeatCount.toNat ≤ s.enc.repeatCount.toNat

/-- The operations that only ask change no state, and asked again answer the same (R69): the three FREESPACEs the same OK and
DOUT (R114, R118, R122), and CANACCEPT and the two ISIDLEs the same OK, with a DOUT of which nothing is said either time (R131,
R132, R180). -/
def Obligations.QueriesChangeNothing : Prop :=
  (∀ (i : Instr) (s : State), i ∈ [Instr.outFreespace, .capFreespace, .rcvFreespace] →
    ∃ r, exec i s = .next { s with results := s.results ++ [r] } ∧
      exec i { s with results := s.results ++ [r] } = .next { s with results := s.results ++ [r] ++ [r] }) ∧
  (∀ (i : Instr) (s : State), i ∈ [Instr.encCanaccept, .encIsidle, .decIsidle] → s.ctx = .poll →
    ∃ ok d d', exec i s = .next { s with results := s.results ++ [⟨ok, d⟩] } ∧
      exec i { s with results := s.results ++ [⟨ok, d⟩] } =
        .next { s with results := s.results ++ [⟨ok, d⟩] ++ [⟨ok, d'⟩] })

/-! ## Queues -/

/-- The three TRYWRITE operations: the element is appended whole, or the queue is full and nothing changes (R111, R115, R119,
R123). -/
def Obligations.QueueWrites : Prop :=
  (∀ (p : Packet) (s : State), s.ctx = .poll → ∃ d, exec (.outTrywrite p) s =
    if s.out.length < 2 then .next { s with out := s.out ++ [p], results := s.results ++ [⟨true, d⟩] }
    else .next { s with results := s.results ++ [⟨false, d⟩] }) ∧
  (∀ (e : PulseEvent) (s : State), s.ctx = .isr → ∃ d, exec (.capTrywrite e) s =
    if s.cap.length < 16 then .next { s with cap := s.cap ++ [e], results := s.results ++ [⟨true, d⟩] }
    else .next { s with results := s.results ++ [⟨false, d⟩] }) ∧
  (∀ (c : Command) (s : State), s.ctx = .poll → ∃ d, exec (.rcvTrywrite c) s =
    if s.rcv.length < 8 then .next { s with rcv := s.rcv ++ [c], results := s.results ++ [⟨true, d⟩] }
    else .next { s with results := s.results ++ [⟨false, d⟩] })

/-- The reads: the oldest element is removed and stands on DOUT, laid out by R85 (R112, R116, R120, R181). -/
def Obligations.QueueReadsTakeTheOldest : Prop :=
  (∀ (s : State) (p : Packet) (rest : List Packet), s.ctx = .poll → s.out = p :: rest →
    exec .outTryread s = .next { s with out := rest, results := s.results ++ [⟨true, wordOfPacket p⟩] }) ∧
  (∀ (s : State) (e : PulseEvent) (rest : List PulseEvent), s.ctx = .poll → s.cap = e :: rest →
    exec .capTryread s = .next { s with cap := rest, results := s.results ++ [⟨true, wordOfEvent e⟩] }) ∧
  (∀ (s : State) (c : Command) (rest : List Command), s.ctx = .poll → s.rcv = c :: rest →
    exec .rcvTryread s = .next { s with rcv := rest, results := s.results ++ [⟨true, wordOfCommand c⟩] } ∧
    exec .decTake s = .next { s with rcv := rest, results := s.results ++ [⟨true, wordOfCommand c⟩] })

/-- A failed read changes no state and answers OK = 0 (R110, R124). -/
def Obligations.FailedReadsChangeNothing : Prop :=
  ∀ s : State, s.ctx = .poll →
    (s.out = [] → ∃ d, exec .outTryread s = .next { s with results := s.results ++ [⟨false, d⟩] }) ∧
    (s.cap = [] → ∃ d, exec .capTryread s = .next { s with results := s.results ++ [⟨false, d⟩] }) ∧
    (s.rcv = [] → ∃ d, exec .rcvTryread s = .next { s with results := s.results ++ [⟨false, d⟩] }) ∧
    (s.rcv = [] → ∃ d, exec .decTake s = .next { s with results := s.results ++ [⟨false, d⟩] })

/-- The three CLEAR operations empty their queue in one step, from either context (R73, R113, R117, R121). -/
def Obligations.QueueClears : Prop :=
  ∀ s : State,
    (∃ d, exec .outClear s = .next { s with out := [], results := s.results ++ [⟨true, d⟩] }) ∧
    (∃ d, exec .capClear s = .next { s with cap := [], results := s.results ++ [⟨true, d⟩] }) ∧
    (∃ d, exec .rcvClear s = .next { s with rcv := [], results := s.results ++ [⟨true, d⟩] })

/-- R114, R118, R122: their OPs, and the free bytes of each queue, from either context. -/
def Obligations.QueueFreeSpace : Prop :=
  (∀ din : Word, decode 0x03 din = .ok .outFreespace ∧ decode 0x13 din = .ok .capFreespace ∧
    decode 0x23 din = .ok .rcvFreespace) ∧
  ∀ s : State,
    exec .outFreespace s =
      .next { s with results := s.results ++ [⟨true, BitVec.ofNat 32 ((2 - s.out.length) * 4)⟩] } ∧
    (s.out.length ≤ 2 → (2 - s.out.length) * 4 ∈ [8, 4, 0]) ∧
    exec .capFreespace s =
      .next { s with results := s.results ++ [⟨true, BitVec.ofNat 32 ((16 - s.cap.length) * 2)⟩] } ∧
    (16 - s.cap.length) * 2 % 2 = 0 ∧ (16 - s.cap.length) * 2 ≤ 32 ∧
    exec .rcvFreespace s =
      .next { s with results := s.results ++ [⟨true, BitVec.ofNat 32 ((8 - s.rcv.length) * 2)⟩] } ∧
    (8 - s.rcv.length) * 2 % 2 = 0 ∧ (8 - s.rcv.length) * 2 ≤ 16

/-- Each queue delivers in the order of writing: what was written since the last CLEAR is what was read since, followed by what
the queue still holds (R71). -/
def Obligations.QueuesAreFirstInFirstOut : Prop :=
  ∀ (i : Instr) (s t : State), exec i s = .next t →
    (∀ h : FifoRecord Packet, h.written = h.readOut ++ s.out →
      (outRecord h i t).written = (outRecord h i t).readOut ++ t.out) ∧
    (∀ h : FifoRecord PulseEvent, h.written = h.readOut ++ s.cap →
      (capRecord h i t).written = (capRecord h i t).readOut ++ t.cap) ∧
    (∀ h : FifoRecord Command, h.written = h.readOut ++ s.rcv →
      (rcvRecord h s i t).written = (rcvRecord h s i t).readOut ++ t.rcv)

/-- R125: a third packet leaves a full OUT unchanged, and ENC.CANACCEPT answers 0 until one is drained, by a read or by the
encoder. -/
def Obligations.ThirdPacketIsDropped : Prop :=
  ∀ (s : State) (p q : Packet), s.ctx = .poll → s.out = [p, q] →
    (∀ x, ∃ d, exec (.outTrywrite x) s = .next { s with results := s.results ++ [⟨false, d⟩] }) ∧
    (∀ c, ∃ d, exec (.encSubmit c) s = .next { s with results := s.results ++ [⟨false, d⟩] }) ∧
    (∃ d, exec .encCanaccept s = .next { s with results := s.results ++ [⟨false, d⟩] }) ∧
    (∃ t u d, exec .outTryread s = .next t ∧ exec .encCanaccept t = .next u ∧
      u.results = t.results ++ [⟨true, d⟩]) ∧
    (s.enc.status = .idle → ∀ rt, ∃ t u d, exec (.encStep rt) s = .next t ∧ exec .encCanaccept t = .next u ∧
      u.results = t.results ++ [⟨true, d⟩])

/-! ## Encoder -/

/-- ENC.CANACCEPT, ENC.ISIDLE and DEC.ISIDLE answer their question and change nothing (R131, R132, R180). -/
def Obligations.QueriesAnswer : Prop :=
  ∀ s : State, s.ctx = .poll →
    (∃ d, exec .encCanaccept s = .next { s with results := s.results ++ [⟨decide (s.out.length < 2), d⟩] }) ∧
    (∃ d, exec .encIsidle s =
      .next { s with results := s.results ++ [⟨decide (s.enc.messageKind = .none), d⟩] }) ∧
    (∃ d, exec .decIsidle s =
      .next { s with results := s.results ++ [⟨decide (s.dec.messageKind = .none), d⟩] })

/-- ENC.SUBMIT queues `[address, ~address, code, ~code]`, or nothing when OUT is full (R133). -/
def Obligations.SubmitBuildsThePacket : Prop :=
  ∀ (c : Command) (s : State), s.ctx = .poll → ∃ d, exec (.encSubmit c) s =
    if s.out.length < 2 then
      .next { s with
        out := s.out ++ [{ b0 := c.address, b1 := ~~~c.address, b2 := c.code, b3 := ~~~c.code }]
        results := s.results ++ [⟨true, d⟩] }
    else .next { s with results := s.results ++ [⟨false, d⟩] }

/-- R136: STEP in Idle, with and without a packet in OUT; the operand is not consulted. -/
def Obligations.StepInIdle : Prop :=
  (∀ (rt : Ticks) (s : State) (p : Packet) (rest : List Packet),
    s.ctx = .poll → s.enc.status = .idle → s.out = p :: rest →
    exec (.encStep rt) s = .next { s with
      out := rest
      enc := { s.enc with
        status := .leadBurst, messageKind := .command, remainingTicks := rt, currentByte := 0, pendingBitCount := 8,
        packetBuffer := p }
      outMode := .burst
      countdown := 342
      trace := s.trace ++ [.burst 342]
      results := s.results ++ [⟨true, 1⟩] }) ∧
  (∀ (rt : Ticks) (s : State), s.ctx = .poll → s.enc.status = .idle → s.out = [] →
    exec (.encStep rt) s = .next { s with
      enc := { s.enc with remainingTicks := rt }
      results := s.results ++ [⟨true, 0⟩] })

/-- R137: outside Idle a STEP with a nonzero operand changes nothing but `remainingTicks`, and answers InProgress. -/
def Obligations.StepWhileAPulseRuns : Prop :=
  ∀ (rt : Ticks) (s : State), s.ctx = .poll → s.enc.status ≠ .idle → rt ≠ 0 →
    exec (.encStep rt) s = .next { s with
      enc := { s.enc with remainingTicks := rt }
      results := s.results ++ [⟨true, 2⟩] }

/-- R138: LeadBurst to LeadPause, 171 ticks for a command message and 83 for a keypress message. -/
def Obligations.LeadBurstToLeadPause : Prop :=
  ∀ (s : State) (n : Ticks), s.ctx = .poll → s.enc.status = .leadBurst →
    (s.enc.messageKind = .command ∧ n = 171 ∨ s.enc.messageKind = .keypress ∧ n = 83) →
    exec (.encStep 0) s = .next { s with
      enc := { s.enc with status := .leadPause, remainingTicks := 0 }
      outMode := .pause
      countdown := n
      trace := s.trace ++ [.pause n]
      results := s.results ++ [⟨true, 2⟩] }

/-- R139, R140: LeadPause to DataBitBurst for a command message, to TrailingBurst for a keypress message. -/
def Obligations.LeadPauseToBurst : Prop :=
  ∀ (s : State) (next : EncStatus), s.ctx = .poll → s.enc.status = .leadPause →
    (s.enc.messageKind = .command ∧ next = .dataBitBurst ∨ s.enc.messageKind = .keypress ∧ next = .trailingBurst) →
    exec (.encStep 0) s = .next { s with
      enc := { s.enc with status := next, remainingTicks := 0 }
      outMode := .burst
      countdown := 22
      trace := s.trace ++ [.burst 22]
      results := s.results ++ [⟨true, 2⟩] }

/-- R141: the data bit `8 - pendingBitCount` of `packetBuffer[currentByte]` chooses the pause, and the position advances. -/
def Obligations.DataBitBurstToPause : Prop :=
  ∀ (s : State) (n : Ticks), s.ctx = .poll → s.enc.status = .dataBitBurst →
    s.enc.currentByte.val ≤ 3 → 1 ≤ s.enc.pendingBitCount.val →
    n = (if (packetByte s.enc.packetBuffer s.enc.currentByte.val).getLsbD (8 - s.enc.pendingBitCount.val)
      then 64 else 21) →
    ∃ (cb : Fin 5) (pbc : Fin 9),
      cb.val = (if s.enc.pendingBitCount.val = 1 then s.enc.currentByte.val + 1 else s.enc.currentByte.val) ∧
      pbc.val = (if s.enc.pendingBitCount.val = 1 then (if s.enc.currentByte.val = 3 then 0 else 8)
        else s.enc.pendingBitCount.val - 1) ∧
      exec (.encStep 0) s = .next { s with
        enc := { s.enc with
          status := .dataBitPause, remainingTicks := 0, currentByte := cb, pendingBitCount := pbc }
        outMode := .pause
        countdown := n
        trace := s.trace ++ [.pause n]
        results := s.results ++ [⟨true, 2⟩] }

/-- At a position the packet does not have, which R31 rules out, STEP still completes: the bit and the position it leaves are free
(log entry 9), everything else is R141's. -/
def Obligations.DataBitBurstOutsideThePacket : Prop :=
  ∀ s : State, s.ctx = .poll → s.enc.status = .dataBitBurst →
    (s.enc.currentByte.val = 4 ∨ s.enc.pendingBitCount.val = 0) →
    ∃ (n : Ticks) (cb : Fin 5) (pbc : Fin 9), (n = 21 ∨ n = 64) ∧
      exec (.encStep 0) s = .next { s with
        enc := { s.enc with
          status := .dataBitPause, remainingTicks := 0, currentByte := cb, pendingBitCount := pbc }
        outMode := .pause
        countdown := n
        trace := s.trace ++ [.pause n]
        results := s.results ++ [⟨true, 2⟩] }

/-- R142: DataBitPause to DataBitBurst while bits remain, to TrailingBurst after the 32nd bit. -/
def Obligations.DataBitPauseToBurst : Prop :=
  ∀ (s : State) (next : EncStatus), s.ctx = .poll → s.enc.status = .dataBitPause →
    (s.enc.currentByte.val < 4 ∧ next = .dataBitBurst ∨ s.enc.currentByte.val = 4 ∧ next = .trailingBurst) →
    exec (.encStep 0) s = .next { s with
      enc := { s.enc with status := next, remainingTicks := 0 }
      outMode := .burst
      countdown := 22
      trace := s.trace ++ [.burst 22]
      results := s.results ++ [⟨true, 2⟩] }

/-- R143, R144: after a TrailingBurst that does not end the transmission, the command-to-keypress gap or the autorepeat pause
(any value from 1 to 65535; log entry 6). -/
def Obligations.TrailingBurstToInterval : Prop :=
  (∀ s : State, s.ctx = .poll → s.enc.status = .trailingBurst → s.enc.messageKind = .command →
    exec (.encStep 0) s = .next { s with
      enc := { s.enc with status := .intervalPause, messageKind := .keypress, remainingTicks := 0 }
      outMode := .pause
      countdown := 1510
      trace := s.trace ++ [.pause 1510]
      results := s.results ++ [⟨true, 2⟩] }) ∧
  (∀ s : State, s.ctx = .poll → s.enc.status = .trailingBurst → s.enc.messageKind = .keypress →
    0 < s.enc.repeatCount.toNat →
    exec (.encStep 0) s = .next { s with
      enc := { s.enc with
        status := .intervalPause, remainingTicks := 0, repeatCount := s.enc.repeatCount - 1 }
      outMode := .pause
      countdown := Config.autorepeatPause
      trace := s.trace ++ [.pause Config.autorepeatPause]
      results := s.results ++ [⟨true, 2⟩] })

/-- R145: the last keypress message's TrailingBurst ends the transmission; no packet is dequeued. -/
def Obligations.TrailingBurstEnds : Prop :=
  ∀ s : State, s.ctx = .poll → s.enc.status = .trailingBurst → s.enc.messageKind = .keypress →
    s.enc.repeatCount = 0 →
    exec (.encStep 0) s = .next { s with
      enc := { s.enc with status := .idle, messageKind := .none, remainingTicks := 0 }
      outMode := .off
      trace := s.trace ++ [.stop]
      results := s.results ++ [⟨true, 3⟩] }

/-- R146: IntervalPause to LeadBurst. -/
def Obligations.IntervalPauseToLeadBurst : Prop :=
  ∀ s : State, s.ctx = .poll → s.enc.status = .intervalPause → s.enc.messageKind = .keypress →
    exec (.encStep 0) s = .next { s with
      enc := { s.enc with status := .leadBurst, remainingTicks := 0 }
      outMode := .burst
      countdown := 342
      trace := s.trace ++ [.burst 342]
      results := s.results ++ [⟨true, 2⟩] }

/-- Whatever is issued but ENC.RESET, the trace so far followed by what the transmission still has to emit does not change; a
packet that starts owes exactly its own trace (R148, under every interleaving). -/
def Obligations.TransmissionOwesItsTrace : Prop :=
  ∀ (i : Instr) (s t : State), EncInv s.enc → i ≠ .encReset → exec i s = .next t →
    EncInv t.enc ∧
    (s.enc.status ≠ .idle → t.trace ++ remainingPulses t.enc = s.trace ++ remainingPulses s.enc) ∧
    (s.enc.status = .idle → t.enc.status = .idle → t.trace = s.trace) ∧
    (s.enc.status = .idle → t.enc.status ≠ .idle →
      ∃ p rest, s.out = p :: rest ∧
        t.trace ++ remainingPulses t.enc = s.trace ++ packetTrace p s.enc.repeatCount.toNat)

/-- R148: the STEPs that carry one packet from Idle to Ended append exactly its trace. -/
def Obligations.TraceOfOnePacket : Prop :=
  ∀ (rt : Ticks) (s : State) (p : Packet) (rest : List Packet) (r : Nat),
    s.ctx = .poll → s.enc.status = .idle → s.out = p :: rest → r = s.enc.repeatCount.toNat →
    ∃ t, execAll (.encStep rt :: List.replicate (71 + 4 * r) (.encStep 0)) s = .next t ∧
      t.trace = s.trace ++ packetTrace p r ∧ (packetPulses p r).length = 71 + 4 * r ∧
      t.enc.status = .idle ∧ t.enc.messageKind = .none ∧ t.enc.repeatCount = 0 ∧ t.out = rest ∧
      t.outMode = .off ∧
      t.results = s.results ++ [⟨true, 1⟩] ++ List.replicate (70 + 4 * r) ⟨true, 2⟩ ++ [⟨true, 3⟩]

/-- R150: every packet `[a, ~a, c, ~c]` has 16 one bits and takes 4556 ticks; its command message takes 2599. -/
def Obligations.DurationOfATransmission : Prop :=
  ∀ c : Command,
    ((List.range 32).filter (wireBit (packetOfCommand c))).length = 16 ∧
    traceTicks (packetPulses (packetOfCommand c) 0) = 4556 ∧
    traceTicks (commandPulses (packetOfCommand c)) = 2599

/-! ## Decoder -/

/-- R171 to R174: the tolerances, the windows in their order, and the idle threshold. -/
def Obligations.ToleranceWindows : Prop :=
  (tol 43 = 4 ∧ tol 86 = 9 ∧ tol 425 = 43 ∧ tol 513 = 51 ∧ tol 1510 = 151 ∧ syncMin = 1359) ∧
  (∀ v r : Nat, inWin v r = true ↔ r - tol r ≤ v ∧ v ≤ r + tol r) ∧
  (∀ r : Nat, tol r = (r + 5) / 10) ∧
  (∀ t : Nat, classify t =
    if 39 ≤ t ∧ t ≤ 47 then .bitLow
    else if 77 ≤ t ∧ t ≤ 95 then .bitHigh
    else if 382 ≤ t ∧ t ≤ 468 then .keypressStart
    else if 469 ≤ t ∧ t ≤ 564 then .commandStart
    else .invalidPulse)

/-- The total duration is the exact sum and never overflows; a saturated pause is always an InvalidPulse (R170, R175). -/
def Obligations.TotalDurationIsExact : Prop :=
  (∀ a b : PulseLength, (totalDuration a b).toNat = a.toNat + b.toNat ∧ (totalDuration a b).toNat ≤ 0xFFFE) ∧
  (∀ a : PulseLength, classify (totalDuration a 0x7FFF).toNat = .invalidPulse)

/-- R183, R184: in Idle only a pause of at least 1359 acts; it resets the counters and enters Command. -/
def Obligations.EventsInIdle : Prop :=
  ∀ (e : PulseEvent) (s : State), s.ctx = .poll → s.dec.messageKind = .none →
    ∃ d, exec (.decOnevent e) s =
      if e.isBurst = false ∧ 1359 ≤ e.length.toNat then
        .next { s with
          dec := { s.dec with
            messageKind := .command, bitAccumulator := 0, pendingBitCount := 0, byteIndex := 0 }
          results := s.results ++ [⟨true, d⟩] }
      else .next { s with results := s.results ++ [⟨true, d⟩] }

/-- R185, R186: a burst in Command is cached, or is the trailing burst once four bytes are complete. -/
def Obligations.BurstsInCommand : Prop :=
  ∀ (e : PulseEvent) (s : State), s.ctx = .poll → s.dec.messageKind = .command → e.isBurst = true →
    ∃ d, exec (.decOnevent e) s =
      if s.dec.byteIndex.toNat < 4 then
        .next { s with dec := { s.dec with lastBurstLength := e.length }, results := s.results ++ [⟨true, d⟩] }
      else
        .next { s with dec := { s.dec with messageKind := .none }, results := s.results ++ [⟨true, d⟩] }

/-- R188, with the shift of R187: a pause whose total is a bit shifts it in; the eighth completes a byte, and the 1st and 3rd
bytes are stored. -/
def Obligations.BitsInCommand : Prop :=
  ∀ (e : PulseEvent) (s : State) (total : Nat) (v : Bool) (acc : Byte),
    s.ctx = .poll → s.dec.messageKind = .command → e.isBurst = false →
    total = s.dec.lastBurstLength.toNat + e.length.toNat →
    (39 ≤ total ∧ total ≤ 47 ∧ v = false ∨ 77 ≤ total ∧ total ≤ 95 ∧ v = true) →
    acc = (s.dec.bitAccumulator >>> 1) ||| (if v then 0x80#8 else 0#8) →
    ∃ d,
      (s.dec.pendingBitCount.val < 7 → ∃ n : Fin 8, n.val = s.dec.pendingBitCount.val + 1 ∧
        exec (.decOnevent e) s = .next { s with
          dec := { s.dec with bitAccumulator := acc, pendingBitCount := n }
          results := s.results ++ [⟨true, d⟩] }) ∧
      (s.dec.pendingBitCount.val = 7 →
        exec (.decOnevent e) s = .next { s with
          dec := { s.dec with
            bitAccumulator := 0
            pendingBitCount := 0
            byteIndex := BitVec.ofNat 8 (min (s.dec.byteIndex.toNat + 1) 255)
            decodedCommand :=
              { address := if s.dec.byteIndex = 0 then acc else s.dec.decodedCommand.address
                code := if s.dec.byteIndex = 2 then acc else s.dec.decodedCommand.code } }
          results := s.results ++ [⟨true, d⟩] })

/-- Eight bits received LSB first assemble the byte sent, from any accumulator (R63, R187, R188). -/
def Obligations.EightBitsAssembleAByte : Prop :=
  ∀ (b : Byte) (s : State), s.ctx = .poll → s.dec.messageKind = .command → s.dec.pendingBitCount = 0 →
    s.dec.byteIndex.toNat < 4 →
    ∃ t, execAll ((List.range 8).flatMap fun m =>
        [Instr.decOnevent (burst 22), .decOnevent (pause (if b.getLsbD m then 64 else 21))]) s = .next t ∧
      t.dec = { s.dec with
        lastBurstLength := 22
        bitAccumulator := 0
        byteIndex := s.dec.byteIndex + 1
        decodedCommand :=
          { address := if s.dec.byteIndex = 0 then b else s.dec.decodedCommand.address
            code := if s.dec.byteIndex = 2 then b else s.dec.decodedCommand.code } } ∧
      t.rcv = s.rcv

/-- R189, R190, R191: the other classes of a pause in Command. -/
def Obligations.OtherPausesInCommand : Prop :=
  ∀ (e : PulseEvent) (s : State) (total : Nat), s.ctx = .poll → s.dec.messageKind = .command → e.isBurst = false →
    total = s.dec.lastBurstLength.toNat + e.length.toNat →
    (382 ≤ total → total ≤ 468 → ∃ d, exec (.decOnevent e) s =
      .next { s with dec := { s.dec with messageKind := .keypress }, results := s.results ++ [⟨true, d⟩] }) ∧
    (469 ≤ total → total ≤ 564 → ∃ d, exec (.decOnevent e) s =
      .next { s with results := s.results ++ [⟨true, d⟩] }) ∧
    (total < 39 ∨ (48 ≤ total ∧ total ≤ 76) ∨ (96 ≤ total ∧ total ≤ 381) ∨ 565 ≤ total →
      ∃ d, exec (.decOnevent e) s =
        if 0 < s.dec.byteIndex.toNat then
          .next { s with dec := State.reset.dec, results := s.results ++ [⟨true, d⟩] }
        else
          .next { s with
            dec := { s.dec with bitAccumulator := 0, pendingBitCount := 0, byteIndex := 0 }
            results := s.results ++ [⟨true, d⟩] })

/-- R192, R193, R194: in Keypress a burst delivers the held command, silently dropped when RCV is full; a pause changes
nothing. -/
def Obligations.EventsInKeypress : Prop :=
  ∀ (e : PulseEvent) (s : State), s.ctx = .poll → s.dec.messageKind = .keypress →
    (e.isBurst = true → ∃ d, exec (.decOnevent e) s = .next { s with
      rcv := if s.rcv.length < 8 then s.rcv ++ [s.dec.decodedCommand] else s.rcv
      dec := { s.dec with messageKind := .none }
      results := s.results ++ [⟨true, d⟩] }) ∧
    (e.isBurst = false → ∃ d, exec (.decOnevent e) s = .next { s with results := s.results ++ [⟨true, d⟩] })

/-- The decoder leaves Command only by a trailing burst after 32 bits, a KeypressStart, an InvalidPulse with a byte complete, or
DEC.RESET (R198). -/
def Obligations.DecoderLeavesCommandOnlyBy : Prop :=
  ∀ (i : Instr) (s t : State), exec i s = .next t → s.dec.messageKind = .command → t.dec.messageKind ≠ .command →
    i = .decReset ∨ ∃ e, i = .decOnevent e ∧
      ((e.isBurst = true ∧ 4 ≤ s.dec.byteIndex.toNat ∧ t.dec.messageKind = .none) ∨
       (e.isBurst = false ∧ classify (s.dec.lastBurstLength.toNat + e.length.toNat) = .keypressStart ∧
         t.dec.messageKind = .keypress) ∨
       (e.isBurst = false ∧ classify (s.dec.lastBurstLength.toNat + e.length.toNat) = .invalidPulse ∧
         0 < s.dec.byteIndex.toNat ∧ t.dec.messageKind = .none))

/-- A command enters RCV only by RCV.TRYWRITE or by the burst of a keypress message, and no event and no reset removes one
(R192, R196, R224). -/
def Obligations.DeliveryOnlyAfterAKeypress : Prop :=
  ∀ (i : Instr) (s t : State), exec i s = .next t →
    (s.rcv.length < t.rcv.length →
      (∃ c, i = .rcvTrywrite c ∧ t.rcv = s.rcv ++ [c]) ∨
      (∃ e, i = .decOnevent e ∧ e.isBurst = true ∧ s.dec.messageKind = .keypress ∧
        t.rcv = s.rcv ++ [s.dec.decodedCommand])) ∧
    ((i = .decReset ∨ i = .encReset ∨ ∃ e, i = .decOnevent e) → ∃ more, t.rcv = s.rcv ++ more)

/-- R195: the pulse train of any four bytes, after a sync pause, is delivered as its 1st and 3rd byte; the complement bytes are
not checked. -/
def Obligations.ComplementBytesAreNotChecked : Prop :=
  ∀ (p : Packet) (silence : PulseLength) (s : State),
    s.ctx = .poll → s.dec.messageKind = .none → s.rcv.length < 8 → 1359 ≤ silence.toNat →
    ∃ t, execAll ((pause silence :: traceEvents (packetTrace p 0)).map Instr.decOnevent) s = .next t ∧
      t.rcv = s.rcv ++ [cmd p.b0 p.b2] ∧ t.dec.messageKind = .none

/-- R199: what the encoder sends for a command, the decoder receives as that command. -/
def Obligations.TransmitReceiveRoundTrip : Prop :=
  ∀ (c : Command) (silence : PulseLength) (s : State),
    s.ctx = .poll → s.enc.status = .idle → s.enc.repeatCount = 0 → s.out = [] →
    s.dec.messageKind = .none → s.rcv.length < 8 → 1359 ≤ silence.toNat →
    ∃ t sent u,
      execAll (.encSubmit c :: List.replicate 72 (.encStep 0)) s = .next t ∧
      t.trace = s.trace ++ sent ∧
      execAll ((pause silence :: traceEvents sent).map Instr.decOnevent) t = .next u ∧
      u.rcv = s.rcv ++ [c] ∧ u.dec.messageKind = .none

/-! ## Timer and duties -/

/-- R210: TMR.TICK is OP 0x50, from the ISR only; it counts down, stays at 0 (the spec's decision D17), answers the new
countdown, and changes nothing else. -/
def Obligations.TickCountsDown : Prop :=
  (∀ din : Word, decode 0x50 din = .ok .tmrTick) ∧
  (∀ s : State, s.ctx = .poll → exec .tmrTick s = .refused (.wrongContext "TMR.TICK" .poll)) ∧
  (∀ (s : State) (n : Ticks), s.ctx = .isr → n.toNat = s.countdown.toNat - 1 →
    exec .tmrTick s = .next { s with countdown := n, results := s.results ++ [⟨true, n.setWidth 32⟩] })

/-- `k` ticks take `k` from the countdown, down to 0, and never touch the output (R210, R213). -/
def Obligations.TicksRunTheCountdown : Prop :=
  ∀ (k : Nat) (s : State), s.ctx = .isr →
    ∃ t, execAll (List.replicate k .tmrTick) s = .next t ∧
      t.countdown.toNat = s.countdown.toNat - k ∧
      t = { s with countdown := t.countdown, results := t.results } ∧
      t.results.length = s.results.length + k

/-- A dispatch loop that keeps its duties, as `keepsDuties` reads them, never has both machines busy (R253). The premise holds the
model's readings of log entries 28, 29 and 30, and of log entry 32 for R253's two conditions, so a loop with a TMR.TICK between
its read of COUNTDOWN and its STEP is not covered. -/
def Obligations.DutiesKeepOneMachineIdle : Prop :=
  ∀ (d : DutyRecord) (i : Instr) (s t : State),
    NotBothBusy s → keepsDuties d s i = true → exec i s = .next t → NotBothBusy t

/-! ## Round trip with repeats -/

/-- The round trip from any launch `repeatCount` `r` (R148, R199): the trace sent for a command, replayed as capture events, is
received as that command and nothing else, once, or `r + 1` times where the open autorepeat pause (log entry 6) is long enough
to resynchronise (R196); what RCV has no room for is dropped (R194). -/
def Obligations.RoundTripWithRepeats : Prop :=
  ∀ (c : Command) (silence : PulseLength) (s : State) (r : Nat),
    s.ctx = .poll → s.enc.status = .idle → r = s.enc.repeatCount.toNat → s.out = [] →
    s.dec.messageKind = .none → 1359 ≤ silence.toNat →
    ∃ t u,
      execAll (.encSubmit c :: List.replicate (72 + 4 * r) (.encStep 0)) s = .next t ∧
      t.trace = s.trace ++ packetTrace (packetOfCommand c) r ∧
      execAll ((pause silence :: traceEvents (packetTrace (packetOfCommand c) r)).map Instr.decOnevent) t = .next u ∧
      u.rcv = s.rcv ++ List.replicate
        (min (8 - s.rcv.length) (if 1359 ≤ Config.autorepeatPause.toNat then r + 1 else 1)) c ∧
      u.dec.messageKind = .none
end

