-- ==== Sys2Proof/Laws/State.lean ====
section
/-! SUPPORT. One lemma per field per update of the state, each true by rfl, so that no proof unfolds a record update. -/

namespace Sys2Proof.Machine

@[simp] theorem State.withOut_out (s : State) (q : List Packet) : (s.withOut q).out = q := rfl
@[simp] theorem State.withOut_cap (s : State) (q : List Packet) : (s.withOut q).cap = s.cap := rfl
@[simp] theorem State.withOut_rcv (s : State) (q : List Packet) : (s.withOut q).rcv = s.rcv := rfl
@[simp] theorem State.withOut_enc (s : State) (q : List Packet) : (s.withOut q).enc = s.enc := rfl
@[simp] theorem State.withOut_dec (s : State) (q : List Packet) : (s.withOut q).dec = s.dec := rfl
@[simp] theorem State.withOut_countdown (s : State) (q : List Packet) : (s.withOut q).countdown = s.countdown := rfl
@[simp] theorem State.withOut_outMode (s : State) (q : List Packet) : (s.withOut q).outMode = s.outMode := rfl
@[simp] theorem State.withOut_trace (s : State) (q : List Packet) : (s.withOut q).trace = s.trace := rfl
@[simp] theorem State.withOut_port (s : State) (q : List Packet) : (s.withOut q).port = s.port := rfl
@[simp] theorem State.withOut_ctx (s : State) (q : List Packet) : (s.withOut q).ctx = s.ctx := rfl
@[simp] theorem State.withOut_results (s : State) (q : List Packet) : (s.withOut q).results = s.results := rfl

@[simp] theorem State.withCap_out (s : State) (q : List PulseEvent) : (s.withCap q).out = s.out := rfl
@[simp] theorem State.withCap_cap (s : State) (q : List PulseEvent) : (s.withCap q).cap = q := rfl
@[simp] theorem State.withCap_rcv (s : State) (q : List PulseEvent) : (s.withCap q).rcv = s.rcv := rfl
@[simp] theorem State.withCap_enc (s : State) (q : List PulseEvent) : (s.withCap q).enc = s.enc := rfl
@[simp] theorem State.withCap_dec (s : State) (q : List PulseEvent) : (s.withCap q).dec = s.dec := rfl
@[simp] theorem State.withCap_countdown (s : State) (q : List PulseEvent) : (s.withCap q).countdown = s.countdown := rfl
@[simp] theorem State.withCap_outMode (s : State) (q : List PulseEvent) : (s.withCap q).outMode = s.outMode := rfl
@[simp] theorem State.withCap_trace (s : State) (q : List PulseEvent) : (s.withCap q).trace = s.trace := rfl
@[simp] theorem State.withCap_port (s : State) (q : List PulseEvent) : (s.withCap q).port = s.port := rfl
@[simp] theorem State.withCap_ctx (s : State) (q : List PulseEvent) : (s.withCap q).ctx = s.ctx := rfl
@[simp] theorem State.withCap_results (s : State) (q : List PulseEvent) : (s.withCap q).results = s.results := rfl

@[simp] theorem State.withRcv_out (s : State) (q : List Command) : (s.withRcv q).out = s.out := rfl
@[simp] theorem State.withRcv_cap (s : State) (q : List Command) : (s.withRcv q).cap = s.cap := rfl
@[simp] theorem State.withRcv_rcv (s : State) (q : List Command) : (s.withRcv q).rcv = q := rfl
@[simp] theorem State.withRcv_enc (s : State) (q : List Command) : (s.withRcv q).enc = s.enc := rfl
@[simp] theorem State.withRcv_dec (s : State) (q : List Command) : (s.withRcv q).dec = s.dec := rfl
@[simp] theorem State.withRcv_countdown (s : State) (q : List Command) : (s.withRcv q).countdown = s.countdown := rfl
@[simp] theorem State.withRcv_outMode (s : State) (q : List Command) : (s.withRcv q).outMode = s.outMode := rfl
@[simp] theorem State.withRcv_trace (s : State) (q : List Command) : (s.withRcv q).trace = s.trace := rfl
@[simp] theorem State.withRcv_port (s : State) (q : List Command) : (s.withRcv q).port = s.port := rfl
@[simp] theorem State.withRcv_ctx (s : State) (q : List Command) : (s.withRcv q).ctx = s.ctx := rfl
@[simp] theorem State.withRcv_results (s : State) (q : List Command) : (s.withRcv q).results = s.results := rfl

@[simp] theorem State.withEnc_out (s : State) (e : EmitterState) : (s.withEnc e).out = s.out := rfl
@[simp] theorem State.withEnc_cap (s : State) (e : EmitterState) : (s.withEnc e).cap = s.cap := rfl
@[simp] theorem State.withEnc_rcv (s : State) (e : EmitterState) : (s.withEnc e).rcv = s.rcv := rfl
@[simp] theorem State.withEnc_enc (s : State) (e : EmitterState) : (s.withEnc e).enc = e := rfl
@[simp] theorem State.withEnc_dec (s : State) (e : EmitterState) : (s.withEnc e).dec = s.dec := rfl
@[simp] theorem State.withEnc_countdown (s : State) (e : EmitterState) : (s.withEnc e).countdown = s.countdown := rfl
@[simp] theorem State.withEnc_outMode (s : State) (e : EmitterState) : (s.withEnc e).outMode = s.outMode := rfl
@[simp] theorem State.withEnc_trace (s : State) (e : EmitterState) : (s.withEnc e).trace = s.trace := rfl
@[simp] theorem State.withEnc_port (s : State) (e : EmitterState) : (s.withEnc e).port = s.port := rfl
@[simp] theorem State.withEnc_ctx (s : State) (e : EmitterState) : (s.withEnc e).ctx = s.ctx := rfl
@[simp] theorem State.withEnc_results (s : State) (e : EmitterState) : (s.withEnc e).results = s.results := rfl

@[simp] theorem State.withDec_out (s : State) (d : ReceiverState) : (s.withDec d).out = s.out := rfl
@[simp] theorem State.withDec_cap (s : State) (d : ReceiverState) : (s.withDec d).cap = s.cap := rfl
@[simp] theorem State.withDec_rcv (s : State) (d : ReceiverState) : (s.withDec d).rcv = s.rcv := rfl
@[simp] theorem State.withDec_enc (s : State) (d : ReceiverState) : (s.withDec d).enc = s.enc := rfl
@[simp] theorem State.withDec_dec (s : State) (d : ReceiverState) : (s.withDec d).dec = d := rfl
@[simp] theorem State.withDec_countdown (s : State) (d : ReceiverState) : (s.withDec d).countdown = s.countdown := rfl
@[simp] theorem State.withDec_outMode (s : State) (d : ReceiverState) : (s.withDec d).outMode = s.outMode := rfl
@[simp] theorem State.withDec_trace (s : State) (d : ReceiverState) : (s.withDec d).trace = s.trace := rfl
@[simp] theorem State.withDec_port (s : State) (d : ReceiverState) : (s.withDec d).port = s.port := rfl
@[simp] theorem State.withDec_ctx (s : State) (d : ReceiverState) : (s.withDec d).ctx = s.ctx := rfl
@[simp] theorem State.withDec_results (s : State) (d : ReceiverState) : (s.withDec d).results = s.results := rfl

@[simp] theorem State.withCountdown_out (s : State) (t : Ticks) : (s.withCountdown t).out = s.out := rfl
@[simp] theorem State.withCountdown_cap (s : State) (t : Ticks) : (s.withCountdown t).cap = s.cap := rfl
@[simp] theorem State.withCountdown_rcv (s : State) (t : Ticks) : (s.withCountdown t).rcv = s.rcv := rfl
@[simp] theorem State.withCountdown_enc (s : State) (t : Ticks) : (s.withCountdown t).enc = s.enc := rfl
@[simp] theorem State.withCountdown_dec (s : State) (t : Ticks) : (s.withCountdown t).dec = s.dec := rfl
@[simp] theorem State.withCountdown_countdown (s : State) (t : Ticks) : (s.withCountdown t).countdown = t := rfl
@[simp] theorem State.withCountdown_outMode (s : State) (t : Ticks) : (s.withCountdown t).outMode = s.outMode := rfl
@[simp] theorem State.withCountdown_trace (s : State) (t : Ticks) : (s.withCountdown t).trace = s.trace := rfl
@[simp] theorem State.withCountdown_port (s : State) (t : Ticks) : (s.withCountdown t).port = s.port := rfl
@[simp] theorem State.withCountdown_ctx (s : State) (t : Ticks) : (s.withCountdown t).ctx = s.ctx := rfl
@[simp] theorem State.withCountdown_results (s : State) (t : Ticks) : (s.withCountdown t).results = s.results := rfl

@[simp] theorem State.respond_out (s : State) (ok : Bool) (dout : Word) : (s.respond ok dout).out = s.out := rfl
@[simp] theorem State.respond_cap (s : State) (ok : Bool) (dout : Word) : (s.respond ok dout).cap = s.cap := rfl
@[simp] theorem State.respond_rcv (s : State) (ok : Bool) (dout : Word) : (s.respond ok dout).rcv = s.rcv := rfl
@[simp] theorem State.respond_enc (s : State) (ok : Bool) (dout : Word) : (s.respond ok dout).enc = s.enc := rfl
@[simp] theorem State.respond_dec (s : State) (ok : Bool) (dout : Word) : (s.respond ok dout).dec = s.dec := rfl
@[simp] theorem State.respond_countdown (s : State) (ok : Bool) (dout : Word) : (s.respond ok dout).countdown = s.countdown := rfl
@[simp] theorem State.respond_outMode (s : State) (ok : Bool) (dout : Word) : (s.respond ok dout).outMode = s.outMode := rfl
@[simp] theorem State.respond_trace (s : State) (ok : Bool) (dout : Word) : (s.respond ok dout).trace = s.trace := rfl
@[simp] theorem State.respond_port (s : State) (ok : Bool) (dout : Word) : (s.respond ok dout).port = s.port := rfl
@[simp] theorem State.respond_ctx (s : State) (ok : Bool) (dout : Word) : (s.respond ok dout).ctx = s.ctx := rfl
@[simp] theorem State.respond_results (s : State) (ok : Bool) (dout : Word) : (s.respond ok dout).results = s.results ++ [Result.mk ok dout] := rfl

@[simp] theorem State.accept_out (s : State) (c : Ctx) (ps : List Presentation) : (s.accept c ps).out = s.out := rfl
@[simp] theorem State.accept_cap (s : State) (c : Ctx) (ps : List Presentation) : (s.accept c ps).cap = s.cap := rfl
@[simp] theorem State.accept_rcv (s : State) (c : Ctx) (ps : List Presentation) : (s.accept c ps).rcv = s.rcv := rfl
@[simp] theorem State.accept_enc (s : State) (c : Ctx) (ps : List Presentation) : (s.accept c ps).enc = s.enc := rfl
@[simp] theorem State.accept_dec (s : State) (c : Ctx) (ps : List Presentation) : (s.accept c ps).dec = s.dec := rfl
@[simp] theorem State.accept_countdown (s : State) (c : Ctx) (ps : List Presentation) : (s.accept c ps).countdown = s.countdown := rfl
@[simp] theorem State.accept_outMode (s : State) (c : Ctx) (ps : List Presentation) : (s.accept c ps).outMode = s.outMode := rfl
@[simp] theorem State.accept_trace (s : State) (c : Ctx) (ps : List Presentation) : (s.accept c ps).trace = s.trace := rfl
@[simp] theorem State.accept_port (s : State) (c : Ctx) (ps : List Presentation) : (s.accept c ps).port = ps := rfl
@[simp] theorem State.accept_ctx (s : State) (c : Ctx) (ps : List Presentation) : (s.accept c ps).ctx = c := rfl
@[simp] theorem State.accept_results (s : State) (c : Ctx) (ps : List Presentation) : (s.accept c ps).results = s.results := rfl

@[simp] theorem State.encEnter_out (s : State) (st : EncStatus) : (s.encEnter st).out = s.out := rfl
@[simp] theorem State.encEnter_cap (s : State) (st : EncStatus) : (s.encEnter st).cap = s.cap := rfl
@[simp] theorem State.encEnter_rcv (s : State) (st : EncStatus) : (s.encEnter st).rcv = s.rcv := rfl
@[simp] theorem State.encEnter_enc (s : State) (st : EncStatus) : (s.encEnter st).enc = { s.enc with status := st } := rfl
@[simp] theorem State.encEnter_dec (s : State) (st : EncStatus) : (s.encEnter st).dec = s.dec := rfl
@[simp] theorem State.encEnter_countdown (s : State) (st : EncStatus) : (s.encEnter st).countdown = s.countdown := rfl
@[simp] theorem State.encEnter_outMode (s : State) (st : EncStatus) : (s.encEnter st).outMode = s.outMode := rfl
@[simp] theorem State.encEnter_trace (s : State) (st : EncStatus) : (s.encEnter st).trace = s.trace := rfl
@[simp] theorem State.encEnter_port (s : State) (st : EncStatus) : (s.encEnter st).port = s.port := rfl
@[simp] theorem State.encEnter_ctx (s : State) (st : EncStatus) : (s.encEnter st).ctx = s.ctx := rfl
@[simp] theorem State.encEnter_results (s : State) (st : EncStatus) : (s.encEnter st).results = s.results := rfl

@[simp] theorem startBurst_out (s : State) (n : Ticks) : (startBurst s n).out = s.out := rfl
@[simp] theorem startBurst_cap (s : State) (n : Ticks) : (startBurst s n).cap = s.cap := rfl
@[simp] theorem startBurst_rcv (s : State) (n : Ticks) : (startBurst s n).rcv = s.rcv := rfl
@[simp] theorem startBurst_enc (s : State) (n : Ticks) : (startBurst s n).enc = s.enc := rfl
@[simp] theorem startBurst_dec (s : State) (n : Ticks) : (startBurst s n).dec = s.dec := rfl
@[simp] theorem startBurst_countdown (s : State) (n : Ticks) : (startBurst s n).countdown = n := rfl
@[simp] theorem startBurst_outMode (s : State) (n : Ticks) : (startBurst s n).outMode = .burst := rfl
@[simp] theorem startBurst_trace (s : State) (n : Ticks) : (startBurst s n).trace = s.trace ++ [.burst n] := rfl
@[simp] theorem startBurst_port (s : State) (n : Ticks) : (startBurst s n).port = s.port := rfl
@[simp] theorem startBurst_ctx (s : State) (n : Ticks) : (startBurst s n).ctx = s.ctx := rfl
@[simp] theorem startBurst_results (s : State) (n : Ticks) : (startBurst s n).results = s.results := rfl

@[simp] theorem startPause_out (s : State) (n : Ticks) : (startPause s n).out = s.out := rfl
@[simp] theorem startPause_cap (s : State) (n : Ticks) : (startPause s n).cap = s.cap := rfl
@[simp] theorem startPause_rcv (s : State) (n : Ticks) : (startPause s n).rcv = s.rcv := rfl
@[simp] theorem startPause_enc (s : State) (n : Ticks) : (startPause s n).enc = s.enc := rfl
@[simp] theorem startPause_dec (s : State) (n : Ticks) : (startPause s n).dec = s.dec := rfl
@[simp] theorem startPause_countdown (s : State) (n : Ticks) : (startPause s n).countdown = n := rfl
@[simp] theorem startPause_outMode (s : State) (n : Ticks) : (startPause s n).outMode = .pause := rfl
@[simp] theorem startPause_trace (s : State) (n : Ticks) : (startPause s n).trace = s.trace ++ [.pause n] := rfl
@[simp] theorem startPause_port (s : State) (n : Ticks) : (startPause s n).port = s.port := rfl
@[simp] theorem startPause_ctx (s : State) (n : Ticks) : (startPause s n).ctx = s.ctx := rfl
@[simp] theorem startPause_results (s : State) (n : Ticks) : (startPause s n).results = s.results := rfl

@[simp] theorem stopOutput_out (s : State) : (stopOutput s).out = s.out := rfl
@[simp] theorem stopOutput_cap (s : State) : (stopOutput s).cap = s.cap := rfl
@[simp] theorem stopOutput_rcv (s : State) : (stopOutput s).rcv = s.rcv := rfl
@[simp] theorem stopOutput_enc (s : State) : (stopOutput s).enc = s.enc := rfl
@[simp] theorem stopOutput_dec (s : State) : (stopOutput s).dec = s.dec := rfl
@[simp] theorem stopOutput_countdown (s : State) : (stopOutput s).countdown = s.countdown := rfl
@[simp] theorem stopOutput_outMode (s : State) : (stopOutput s).outMode = .off := rfl
@[simp] theorem stopOutput_trace (s : State) : (stopOutput s).trace = s.trace ++ [.stop] := rfl
@[simp] theorem stopOutput_port (s : State) : (stopOutput s).port = s.port := rfl
@[simp] theorem stopOutput_ctx (s : State) : (stopOutput s).ctx = s.ctx := rfl
@[simp] theorem stopOutput_results (s : State) : (stopOutput s).results = s.results := rfl

end Sys2Proof.Machine
end

