-- ==== Sys2Proof/Laws/Ops.lean ====
section
/-! SUPPORT. One lemma per shared operation, saying once everything it can do; proofs cite these and do not unfold the
operation. -/

namespace Sys2Proof.Machine

/-! ### Queues -/

theorem qHasRoom_iff {α : Type} (sh : QueueShape) (q : List α) (hpos : 0 < sh.esz) :
    qHasRoom sh q = true ↔ q.length < sh.cap := by
  rw [qHasRoom, decide_eq_true_iff, qFree, qLen]
  constructor
  · intro h
    by_contra hc
    have : sh.cap - q.length = 0 := by omega
    rw [this] at h
    omega
  · intro h
    exact Nat.le_mul_of_pos_left sh.esz (by omega)

theorem qHasRoom_out (q : List Packet) : qHasRoom Config.outShape q = decide (q.length < 2) := by
  rw [Bool.eq_iff_iff, qHasRoom_iff _ _ (by decide)]
  simp [Config.outShape]

theorem qHasRoom_cap (q : List PulseEvent) : qHasRoom Config.capShape q = decide (q.length < 16) := by
  rw [Bool.eq_iff_iff, qHasRoom_iff _ _ (by decide)]
  simp [Config.capShape]

theorem qHasRoom_rcv (q : List Command) : qHasRoom Config.rcvShape q = decide (q.length < 8) := by
  rw [Bool.eq_iff_iff, qHasRoom_iff _ _ (by decide)]
  simp [Config.rcvShape]

/-- A write appends one whole element and answers true, or changes nothing and answers false. -/
theorem tryWrite_cases {α : Type} (sh : QueueShape) (q : List α) (e : α) :
    (qHasRoom sh q = true ∧ tryWrite sh q e = (true, q ++ [e])) ∨
    (qHasRoom sh q = false ∧ tryWrite sh q e = (false, q)) := by
  cases h : qHasRoom sh q <;> simp [tryWrite, qPush, h]

/-- A write never takes a queue past its capacity. -/
theorem tryWrite_length_le {α : Type} (sh : QueueShape) (q : List α) (e : α) (hpos : 0 < sh.esz)
    (hq : q.length ≤ sh.cap) : (tryWrite sh q e).2.length ≤ sh.cap := by
  rcases tryWrite_cases sh q e with ⟨hr, h⟩ | ⟨_, h⟩
  · have := (qHasRoom_iff sh q hpos).1 hr
    simp [h]
    omega
  · simpa [h] using hq

@[simp] theorem tryRead_nil {α : Type} : tryRead ([] : List α) = (none, []) := rfl

@[simp] theorem tryRead_cons {α : Type} (e : α) (q : List α) : tryRead (e :: q) = (some e, q) := rfl

/-- A read leaves the queue's tail. -/
theorem tryRead_queue {α : Type} (q : List α) : (tryRead q).2 = q.tail := by cases q <;> rfl

/-! ### Contexts and answers -/

/-- A meaning answers a next state exactly when its row allows the context, and then its effect. -/
theorem inContext_eq_next (r : CtxRule) (m : String) (s e t : State) :
    inContext r m s e = .next t ↔ r.allows s.ctx = true ∧ t = e := by
  unfold inContext
  split
  · constructor
    · intro h
      cases h
      exact ⟨by assumption, rfl⟩
    · rintro ⟨-, rfl⟩
      rfl
  · constructor
    · intro h
      cases h
    · rintro ⟨h, -⟩
      contradiction

theorem inContext_allowed (r : CtxRule) (m : String) (s e : State) (h : r.allows s.ctx = true) :
    inContext r m s e = .next e := by simp [inContext, h]

theorem inContext_wrong (r : CtxRule) (m : String) (s e : State) (h : r.allows s.ctx = false) :
    inContext r m s e = .refused (.wrongContext m s.ctx) := by simp [inContext, h]

@[simp] theorem CtxRule.both_allows (c : Ctx) : CtxRule.both.allows c = true := by cases c <;> rfl

@[simp] theorem CtxRule.pollOnly_allows (c : Ctx) : CtxRule.pollOnly.allows c = true ↔ c = .poll := by cases c <;> decide

@[simp] theorem CtxRule.isrOnly_allows (c : Ctx) : CtxRule.isrOnly.allows c = true ↔ c = .isr := by cases c <;> decide

/-- An answer appends one result and changes nothing else. -/
theorem answer_eq (s : State) (ok : Bool) : s.answer ok = { s with results := s.results ++ [⟨ok, 0⟩] } := rfl

theorem answerWord_eq (s : State) (w : Word) : s.answerWord w = { s with results := s.results ++ [⟨true, w⟩] } := rfl

theorem answerRead_some {α : Type} (s : State) (f : α → Word) (e : α) :
    s.answerRead f (some e) = { s with results := s.results ++ [⟨true, f e⟩] } := rfl

theorem answerRead_none {α : Type} (s : State) (f : α → Word) :
    s.answerRead f none = { s with results := s.results ++ [⟨false, 0⟩] } := rfl

/-- Whatever a read answers, it appends one result and changes nothing else. -/
theorem answerRead_eq {α : Type} (s : State) (f : α → Word) (r : Option α) :
    ∃ a, s.answerRead f r = { s with results := s.results ++ [a] } := by
  cases r
  · exact ⟨_, answerRead_none s f⟩
  · exact ⟨_, answerRead_some s f _⟩

/-! ### Dispatch -/

/-- Every arm is its operation's row of the context table over one effect. -/
theorem exec_eq_inContext (i : Instr) (s : State) :
    ∃ t, exec i s = inContext (ctxRuleOf i) (mnemonicOf i) s t := by
  cases i <;> exact ⟨_, rfl⟩

/-- The three ways ENC.STEP acts, with the operand recorded first (R135). -/
theorem encStepCore_cases (rt : Ticks) (s : State) :
    (s.enc.status ≠ .idle ∧ rt ≠ 0 ∧
      encStepCore rt s = (s.withEnc { s.enc with remainingTicks := rt }, .inProgress)) ∨
    ((s.enc.status = .idle ∨ rt = 0) ∧
      encStepCore rt s = encTransition (s.withEnc { s.enc with remainingTicks := rt })) := by
  by_cases h : s.enc.status ≠ .idle ∧ rt ≠ 0
  · left
    exact ⟨h.1, h.2, if_pos h⟩
  · right
    refine ⟨?_, if_neg h⟩
    rw [not_and_or, not_not, not_not] at h
    exact h

/-- What DEC.ONEVENT changes: the decoder, and RCV by at most the delivered command (R182, R192). -/
theorem decOnEventCore_cases (e : PulseEvent) (s : State) :
    (∃ d, decOnEventCore e s = s.withDec d) ∨
    (s.dec.messageKind = .keypress ∧ e.isBurst = true ∧ decOnEventCore e s = deliver s) := by
  unfold decOnEventCore
  split
  · exact .inl ⟨_, rfl⟩
  · exact .inl ⟨_, rfl⟩
  · rename_i h
    unfold eventInKeypress
    split
    · rename_i hb
      exact .inr ⟨h, hb, rfl⟩
    · exact .inl ⟨s.dec, rfl⟩

end Sys2Proof.Machine
end

