-- ==== Sys2Proof/Laws/Machines.lean ====
section
/-! SUPPORT. What the two state machines' shared functions compute, one lemma per function: the encoder's bit position
(41_encoder.md R141), the decoder's total and classification (42_decoder.md R170 to R175) and its byte index (R188). -/

namespace Sys2Proof.Machine

/-! ### The encoder's position -/

/-- Advancing changes the position only. -/
theorem encAdvanceBit_fields (e : EmitterState) :
    encAdvanceBit e = { e with
      currentByte := (encAdvanceBit e).currentByte
      pendingBitCount := (encAdvanceBit e).pendingBitCount } := by
  unfold encAdvanceBit
  split <;> rfl

/-- At a position of the packet the data bit is the packet's. -/
theorem encDataBit_in_packet (e : EmitterState) (hb : e.currentByte.val ≤ 3) (hn : 1 ≤ e.pendingBitCount.val) :
    encDataBit e = (packetByte e.packetBuffer e.currentByte.val).getLsbD (8 - e.pendingBitCount.val) :=
  if_pos ⟨by omega, by omega⟩

theorem encBitCountLess_val (e : EmitterState) (hn : 1 ≤ e.pendingBitCount.val) :
    (encBitCountLess e).val = e.pendingBitCount.val - 1 := by
  rw [encBitCountLess, if_pos (by omega)]

theorem encNextByte_val (e : EmitterState) (hb : e.currentByte.val ≤ 3) :
    (encNextByte e).val = e.currentByte.val + 1 := by
  rw [encNextByte, dif_pos (by omega)]

/-- The byte after the advance: the next one after a byte's last bit. -/
theorem encAdvanceBit_currentByte (e : EmitterState) (hb : e.currentByte.val ≤ 3) (hn : 1 ≤ e.pendingBitCount.val) :
    (encAdvanceBit e).currentByte.val =
      if e.pendingBitCount.val = 1 then e.currentByte.val + 1 else e.currentByte.val := by
  have hl := encBitCountLess_val e hn
  unfold encAdvanceBit
  split
  · rename_i h
    have h1 : e.pendingBitCount.val = 1 := by
      rw [h] at hl
      simp at hl
      omega
    simp only [h1, if_true]
    exact encNextByte_val e hb
  · rename_i h
    rw [if_neg]
    intro h1
    exact h (Fin.ext (by rw [hl, h1]; rfl))

/-- The bits left after the advance: 8 in a new byte, none after the packet's last bit. -/
theorem encAdvanceBit_pendingBitCount (e : EmitterState) (hb : e.currentByte.val ≤ 3)
    (hn : 1 ≤ e.pendingBitCount.val) :
    (encAdvanceBit e).pendingBitCount.val =
      if e.pendingBitCount.val = 1 then (if e.currentByte.val = 3 then 0 else 8) else e.pendingBitCount.val - 1 := by
  have hl := encBitCountLess_val e hn
  unfold encAdvanceBit
  split
  · rename_i h
    have h1 : e.pendingBitCount.val = 1 := by
      rw [h] at hl
      simp at hl
      omega
    simp only [h1, if_true]
    by_cases h3 : e.currentByte.val = 3
    · simp [h3]
    · simp [h3, show e.currentByte.val + 1 < 4 by omega]
  · rename_i h
    rw [if_neg]
    · exact hl
    · intro h1
      exact h (Fin.ext (by rw [hl, h1]; rfl))

/-- A bit's pause is 64 ticks for a one and 21 for a zero. -/
theorem bitPause_eq (b : Bool) : bitPause b = if b then 64 else 21 := by cases b <;> decide

/-! ### The shape of every ENC.STEP -/

/-- A transition with effect: OUT is dequeued exactly when a packet starts, the encoder goes to another status without raising
`repeatCount`, and exactly one primitive is called after that (R130). -/
def EncActs (s : State) : Prop :=
  ∃ q e n, e.status ≠ s.enc.status ∧ e.repeatCount.toNat ≤ s.enc.repeatCount.toNat ∧
    (encTransition s = (startBurst ((s.withOut q).withEnc e) n, .started) ∧ s.enc.status = .idle ∧
        s.out = e.packetBuffer :: q ∨
      encTransition s = (startBurst ((s.withOut q).withEnc e) n, .inProgress) ∧ s.enc.status ≠ .idle ∧ q = s.out ∨
      encTransition s = (startPause ((s.withOut q).withEnc e) n, .inProgress) ∧ s.enc.status ≠ .idle ∧ q = s.out ∨
      encTransition s = (stopOutput ((s.withOut q).withEnc e), .ended) ∧ s.enc.status ≠ .idle ∧ q = s.out)

theorem encActs_of_burst {s : State} {st : EncStatus} {n : Ticks}
    (ht : encTransition s = ((startBurst s n).encEnter st, .inProgress)) (hi : s.enc.status ≠ .idle)
    (hs : st ≠ s.enc.status) : EncActs s :=
  ⟨s.out, { s.enc with status := st }, n, hs, Nat.le_refl _, .inr (.inl ⟨ht, hi, rfl⟩)⟩

theorem encActs_of_pause {s : State} {st : EncStatus} {n : Ticks} (e : EmitterState)
    (ht : encTransition s = ((startPause (s.withEnc e) n).encEnter st, .inProgress)) (hi : s.enc.status ≠ .idle)
    (hs : st ≠ s.enc.status) (hr : e.repeatCount.toNat ≤ s.enc.repeatCount.toNat) : EncActs s :=
  ⟨s.out, { e with status := st }, n, hs, hr, .inr (.inr (.inl ⟨ht, hi, rfl⟩))⟩

/-- What the transition out of any status does: nothing (Idle with OUT empty), or the one shape of `EncActs`. -/
theorem encTransition_shape (s : State) :
    (s.enc.status = .idle ∧ s.out = [] ∧ encTransition s = (s, .notSending)) ∨ EncActs s := by
  cases h : s.enc.status with
  | idle =>
    cases ho : s.out with
    | nil => exact .inl ⟨rfl, rfl, by simp only [encTransition, h, encStart, ho]⟩
    | cons p rest =>
      refine .inr ⟨rest, { s.enc with
        packetBuffer := p, currentByte := 0, pendingBitCount := 8, messageKind := .command, status := .leadBurst },
        Config.timing.leadBurst, by simp [h], Nat.le_refl _, .inl ⟨?_, h, ho⟩⟩
      simp only [encTransition, h, encStart, ho]
      rfl
  | leadBurst =>
    refine .inr (encActs_of_pause s.enc (by simp only [encTransition, h]; rfl) (by simp [h]) (by simp [h])
      (Nat.le_refl _))
  | leadPause =>
    right
    by_cases hk : s.enc.messageKind = .command
    · exact encActs_of_burst (by simp only [encTransition, h, encAfterLeadPause, hk]; rfl) (by simp [h]) (by simp [h])
    · exact encActs_of_burst (by simp only [encTransition, h, encAfterLeadPause, hk]; rfl) (by simp [h]) (by simp [h])
  | dataBitBurst =>
    refine .inr (encActs_of_pause (encAdvanceBit s.enc) (by simp only [encTransition, h]; rfl) (by simp [h])
      (by simp [h]) ?_)
    rw [encAdvanceBit_fields]
  | dataBitPause =>
    right
    by_cases hk : s.enc.currentByte.val < 4
    · exact encActs_of_burst (by simp only [encTransition, h, encAfterBitPause, hk]; rfl) (by simp [h]) (by simp [h])
    · exact encActs_of_burst (by simp only [encTransition, h, encAfterBitPause, hk]; rfl) (by simp [h]) (by simp [h])
  | trailingBurst =>
    right
    by_cases hk : s.enc.messageKind = .command
    · exact encActs_of_pause { s.enc with messageKind := .keypress }
        (by simp only [encTransition, h, encAfterTrailingBurst, hk]; rfl) (by simp [h]) (by simp [h]) (Nat.le_refl _)
    · by_cases h0 : s.enc.repeatCount = 0
      · refine ⟨s.out, { s.enc with status := .idle, messageKind := .none }, 0, by simp [h], Nat.le_refl _,
          .inr (.inr (.inr ⟨?_, by simp [h], rfl⟩))⟩
        have ht : encTransition s = encEnd s := by simp [encTransition, h, encAfterTrailingBurst, hk, h0]
        rw [ht]
        rfl
      · refine encActs_of_pause { s.enc with repeatCount := s.enc.repeatCount - 1 }
          (by simp only [encTransition, h, encAfterTrailingBurst, hk, if_false, h0, ne_eq, not_false_eq_true, if_true]; rfl)
          (by simp [h]) (by simp [h]) ?_
        have : s.enc.repeatCount.toNat ≠ 0 := fun hz => h0 (BitVec.eq_of_toNat_eq hz)
        show (s.enc.repeatCount - 1).toNat ≤ _
        bv_omega
  | intervalPause =>
    exact .inr (encActs_of_burst (by simp only [encTransition, h]; rfl) (by simp [h]) (by simp [h]))

/-! ### The decoder's total and classification -/

theorem totalDuration_toNat (a b : PulseLength) : (totalDuration a b).toNat = a.toNat + b.toNat := by
  have ha := a.isLt
  have hb := b.isLt
  simp [totalDuration]
  omega

theorem syncMin_eq : syncMin = 1359 := by decide

theorem byteIndexNext_toNat (n : Byte) : (byteIndexNext n).toNat = min (n.toNat + 1) 255 := by
  revert n
  decide

/-- A completed byte goes to the address if it is the 1st, to the code if it is the 3rd, and nowhere else. -/
theorem storeByte_eq (d : ReceiverState) (b : Byte) :
    storeByte d b =
      { address := if d.byteIndex = 0 then b else d.decodedCommand.address
        code := if d.byteIndex = 2 then b else d.decodedCommand.code } := by
  unfold storeByte
  split
  · rename_i h
    simp [h]
  · split <;> rfl

/-! ### Capture events -/

/-- What a measured length is captured as: itself, up to the sentinel (R84, R211). -/
theorem capturedEvent_length_toNat (b : Bool) (n : Nat) : (capturedEvent b n).length.toNat = min n 0x7FFF := by
  simp only [capturedEvent, Config.lenMax, BitVec.toNat_ofNat]
  omega

end Sys2Proof.Machine
end

