-- ==== Sys2Proof/Laws/Exec.lean ====
section
/-! SUPPORT. What an answer of `exec` says: each operation's effect, once, so that a proof over all operations starts from
`exec_next_iff` and takes the cases of `coreEffect`. -/

namespace Sys2Proof.Machine

/-- The state an operation leaves before its answer is appended. -/
def coreEffect (i : Instr) (s : State) : State :=
  match i with
  | .outTrywrite p => s.withOut (tryWrite Config.outShape s.out p).2
  | .outTryread => s.withOut s.out.tail
  | .outClear => s.withOut []
  | .outFreespace => s
  | .capTrywrite e => s.withCap (tryWrite Config.capShape s.cap e).2
  | .capTryread => s.withCap s.cap.tail
  | .capClear => s.withCap []
  | .capFreespace => s
  | .rcvTrywrite c => s.withRcv (tryWrite Config.rcvShape s.rcv c).2
  | .rcvTryread => s.withRcv s.rcv.tail
  | .rcvClear => s.withRcv []
  | .rcvFreespace => s
  | .encCanaccept => s
  | .encIsidle => s
  | .encSubmit c => s.withOut (tryWrite Config.outShape s.out (packetOfCommand c)).2
  | .encReset => s.withEnc (encForceIdle s.enc)
  | .encStep rt => (encStepCore rt s).1
  | .decIsidle => s
  | .decTake => s.withRcv s.rcv.tail
  | .decReset => s.withDec ReceiverState.reset
  | .decOnevent e => decOnEventCore e s
  | .tmrTick => s.withCountdown (countdownNext s.countdown)

/-- The answer an operation gives. -/
def coreAnswer (i : Instr) (s : State) : Result :=
  match i with
  | .outTrywrite p => ⟨(tryWrite Config.outShape s.out p).1, 0⟩
  | .outTryread => match s.out with
    | [] => ⟨false, 0⟩
    | p :: _ => ⟨true, wordOfPacket p⟩
  | .outClear => ⟨true, 0⟩
  | .outFreespace => ⟨true, freeWord Config.outShape s.out⟩
  | .capTrywrite e => ⟨(tryWrite Config.capShape s.cap e).1, 0⟩
  | .capTryread => match s.cap with
    | [] => ⟨false, 0⟩
    | e :: _ => ⟨true, wordOfEvent e⟩
  | .capClear => ⟨true, 0⟩
  | .capFreespace => ⟨true, freeWord Config.capShape s.cap⟩
  | .rcvTrywrite c => ⟨(tryWrite Config.rcvShape s.rcv c).1, 0⟩
  | .rcvTryread => match s.rcv with
    | [] => ⟨false, 0⟩
    | c :: _ => ⟨true, wordOfCommand c⟩
  | .rcvClear => ⟨true, 0⟩
  | .rcvFreespace => ⟨true, freeWord Config.rcvShape s.rcv⟩
  | .encCanaccept => ⟨qHasRoom Config.outShape s.out, 0⟩
  | .encIsidle => ⟨decide (s.enc.messageKind = .none), 0⟩
  | .encSubmit c => ⟨(tryWrite Config.outShape s.out (packetOfCommand c)).1, 0⟩
  | .encReset => ⟨true, 0⟩
  | .encStep rt => ⟨true, (encStepCore rt s).2.code⟩
  | .decIsidle => ⟨decide (s.dec.messageKind = .none), 0⟩
  | .decTake => match s.rcv with
    | [] => ⟨false, 0⟩
    | c :: _ => ⟨true, wordOfCommand c⟩
  | .decReset => ⟨true, 0⟩
  | .decOnevent _ => ⟨true, 0⟩
  | .tmrTick => ⟨true, wordOfTicks (countdownNext s.countdown)⟩

theorem answerRead_out (s : State) :
    (s.withOut (tryRead s.out).2).answerRead wordOfPacket (tryRead s.out).1 =
      (coreEffect .outTryread s).respond (coreAnswer .outTryread s).ok (coreAnswer .outTryread s).dout := by
  cases h : s.out <;> simp [coreEffect, coreAnswer, h, State.answerRead]

theorem answerRead_cap (s : State) :
    (s.withCap (tryRead s.cap).2).answerRead wordOfEvent (tryRead s.cap).1 =
      (coreEffect .capTryread s).respond (coreAnswer .capTryread s).ok (coreAnswer .capTryread s).dout := by
  cases h : s.cap <;> simp [coreEffect, coreAnswer, h, State.answerRead]

theorem answerRead_rcv (s : State) :
    (s.withRcv (tryRead s.rcv).2).answerRead wordOfCommand (tryRead s.rcv).1 =
      (coreEffect .rcvTryread s).respond (coreAnswer .rcvTryread s).ok (coreAnswer .rcvTryread s).dout := by
  cases h : s.rcv <;> simp [coreEffect, coreAnswer, h, State.answerRead]

/-- Every arm of `exec`: the context check over the effect followed by the answer. -/
theorem exec_eq (i : Instr) (s : State) :
    exec i s = inContext (ctxRuleOf i) (mnemonicOf i) s
      ((coreEffect i s).respond (coreAnswer i s).ok (coreAnswer i s).dout) := by
  cases i with
  | outTryread => rw [← answerRead_out]; rfl
  | capTryread => rw [← answerRead_cap]; rfl
  | rcvTryread => rw [← answerRead_rcv]; rfl
  | decTake => exact congrArg (inContext .pollOnly "DEC.TAKE" s) (answerRead_rcv s)
  | _ => rfl

/-- When an operation completes, and with what. -/
theorem exec_next_iff (i : Instr) (s t : State) :
    exec i s = .next t ↔ (ctxRuleOf i).allows s.ctx = true ∧
      t = (coreEffect i s).respond (coreAnswer i s).ok (coreAnswer i s).dout := by
  rw [exec_eq, inContext_eq_next]

/-- ENC.STEP's effect is nothing but the recorded operand, or that of a transition. -/
theorem coreEffect_encStep (rt : Ticks) (s : State) :
    coreEffect (.encStep rt) s = s.withEnc { s.enc with remainingTicks := rt } ∨
    coreEffect (.encStep rt) s = (encTransition (s.withEnc { s.enc with remainingTicks := rt })).1 := by
  rcases encStepCore_cases rt s with ⟨_, _, h⟩ | ⟨_, h⟩
  · exact .inl (congrArg Prod.fst h)
  · exact .inr (congrArg Prod.fst h)

end Sys2Proof.Machine
end

