-- ==== Sys2Proof/Laws/Layout.lean ====
section
/-! SUPPORT. The port layouts (30_encoding.md R84, R85) are inverse to each other, one lemma per layout and direction, and what
each OP of the opcode map (R83) decodes to. -/

namespace Sys2Proof

theorem packetOfWord_wordOfPacket (p : Packet) : packetOfWord (wordOfPacket p) = p := by
  rcases p with ⟨a, b, c, d⟩
  simp only [packetOfWord, pkt, byteOf, wordOfPacket, Packet.mk.injEq]
  refine ⟨?_, ?_, ?_, ?_⟩ <;> (apply BitVec.eq_of_getLsbD_eq; intro i hi; simp; interval_cases i <;> simp)

theorem commandOfWord_wordOfCommand (p : Command) : commandOfWord (wordOfCommand p) = p := by
  rcases p with ⟨a, b⟩
  simp only [commandOfWord, cmd, byteOf, wordOfCommand, Command.mk.injEq]
  refine ⟨?_, ?_⟩ <;> (apply BitVec.eq_of_getLsbD_eq; intro i hi; interval_cases i <;> simp)

theorem eventOfWord_wordOfEvent (p : PulseEvent) : eventOfWord (wordOfEvent p) = p := by
  rcases p with ⟨a, b⟩
  simp only [eventOfWord, wordOfEvent, eventBits, PulseEvent.mk.injEq]
  constructor
  · simp
  · apply BitVec.eq_of_getLsbD_eq; intro i hi; interval_cases i <;> simp

theorem ticksOfWord_wordOfTicks (t : Ticks) : ticksOfWord (wordOfTicks t) = t := by
  apply BitVec.eq_of_getLsbD_eq; intro i hi; interval_cases i <;> simp [ticksOfWord, wordOfTicks]

theorem wordOfPacket_packetOfWord (w : Word) : wordOfPacket (packetOfWord w) = w &&& 0xFFFFFFFF#32 := by
  apply BitVec.eq_of_getLsbD_eq
  intro i hi
  interval_cases i <;> simp [packetOfWord, pkt, byteOf, wordOfPacket]

/-- The bits of the 16-bit mask. -/
theorem mask16_getLsbD (i : Nat) (h : i < 32) : (0xFFFF#32).getLsbD i = decide (i < 16) := by
  interval_cases i <;> rfl

theorem wordOfCommand_commandOfWord (w : Word) : wordOfCommand (commandOfWord w) = w &&& 0xFFFF#32 := by
  apply BitVec.eq_of_getLsbD_eq
  intro i hi
  rw [BitVec.getLsbD_and, mask16_getLsbD i hi]
  interval_cases i <;> simp [commandOfWord, cmd, byteOf, wordOfCommand]

theorem wordOfEvent_eventOfWord (w : Word) : wordOfEvent (eventOfWord w) = w &&& 0xFFFF#32 := by
  apply BitVec.eq_of_getLsbD_eq
  intro i hi
  rw [BitVec.getLsbD_and, mask16_getLsbD i hi]
  interval_cases i <;> simp [eventOfWord, wordOfEvent, eventBits]

theorem wordOfTicks_ticksOfWord (w : Word) : wordOfTicks (ticksOfWord w) = w &&& 0xFFFF#32 := by
  apply BitVec.eq_of_getLsbD_eq
  intro i hi
  rw [BitVec.getLsbD_and, mask16_getLsbD i hi]
  interval_cases i <;> simp [ticksOfWord, wordOfTicks]

/-! ### The opcode map -/

@[simp] theorem decode_outTrywrite (din : Word) : decode 0x00#8 din = .ok (.outTrywrite (packetOfWord din)) := rfl
@[simp] theorem decode_outTryread (din : Word) : decode 0x01#8 din = .ok .outTryread := rfl
@[simp] theorem decode_outClear (din : Word) : decode 0x02#8 din = .ok .outClear := rfl
@[simp] theorem decode_outFreespace (din : Word) : decode 0x03#8 din = .ok .outFreespace := rfl
@[simp] theorem decode_capTrywrite (din : Word) : decode 0x10#8 din = .ok (.capTrywrite (eventOfWord din)) := rfl
@[simp] theorem decode_capTryread (din : Word) : decode 0x11#8 din = .ok .capTryread := rfl
@[simp] theorem decode_capClear (din : Word) : decode 0x12#8 din = .ok .capClear := rfl
@[simp] theorem decode_capFreespace (din : Word) : decode 0x13#8 din = .ok .capFreespace := rfl
@[simp] theorem decode_rcvTrywrite (din : Word) : decode 0x20#8 din = .ok (.rcvTrywrite (commandOfWord din)) := rfl
@[simp] theorem decode_rcvTryread (din : Word) : decode 0x21#8 din = .ok .rcvTryread := rfl
@[simp] theorem decode_rcvClear (din : Word) : decode 0x22#8 din = .ok .rcvClear := rfl
@[simp] theorem decode_rcvFreespace (din : Word) : decode 0x23#8 din = .ok .rcvFreespace := rfl
@[simp] theorem decode_encCanaccept (din : Word) : decode 0x30#8 din = .ok .encCanaccept := rfl
@[simp] theorem decode_encIsidle (din : Word) : decode 0x31#8 din = .ok .encIsidle := rfl
@[simp] theorem decode_encSubmit (din : Word) : decode 0x32#8 din = .ok (.encSubmit (commandOfWord din)) := rfl
@[simp] theorem decode_encReset (din : Word) : decode 0x33#8 din = .ok .encReset := rfl
@[simp] theorem decode_encStep (din : Word) : decode 0x34#8 din = .ok (.encStep (ticksOfWord din)) := rfl
@[simp] theorem decode_decIsidle (din : Word) : decode 0x40#8 din = .ok .decIsidle := rfl
@[simp] theorem decode_decTake (din : Word) : decode 0x41#8 din = .ok .decTake := rfl
@[simp] theorem decode_decReset (din : Word) : decode 0x42#8 din = .ok .decReset := rfl
@[simp] theorem decode_decOnevent (din : Word) : decode 0x43#8 din = .ok (.decOnevent (eventOfWord din)) := rfl
@[simp] theorem decode_tmrTick (din : Word) : decode 0x50#8 din = .ok .tmrTick := rfl

end Sys2Proof
end

