-- ==== Sys2Proof/Laws/PerInstr.lean ====
section
/-! SUPPORT. Statements made per operation. Family `Port`: an operation's OP is in the opcode map (30_encoding.md R83), with
its unit and function within R82, and its operand occupies no DIN bit the layout does not name (R85). -/

namespace Sys2Proof.Laws.Port

/-- The encoded operation fits the opcode map and the DIN layouts. -/
def Statement (i : Instr) : Prop :=
  (encode i).1 ∈ definedOps ∧ unitOf (encode i).1 ≤ 5 ∧ funcOf (encode i).1 ≤ 4 ∧
    (encode i).2 &&& dinMask i = (encode i).2

theorem wordOfCommand_masked (c : Command) : wordOfCommand c &&& 0xFFFF#32 = wordOfCommand c := by
  rw [← wordOfCommand_commandOfWord, commandOfWord_wordOfCommand]

theorem wordOfEvent_masked (e : PulseEvent) : wordOfEvent e &&& 0xFFFF#32 = wordOfEvent e := by
  rw [← wordOfEvent_eventOfWord, eventOfWord_wordOfEvent]

theorem wordOfTicks_masked (t : Ticks) : wordOfTicks t &&& 0xFFFF#32 = wordOfTicks t := by
  rw [← wordOfTicks_ticksOfWord, ticksOfWord_wordOfTicks]

theorem wordOfPacket_masked (p : Packet) : wordOfPacket p &&& 0xFFFFFFFF#32 = wordOfPacket p := by
  rw [← wordOfPacket_packetOfWord, packetOfWord_wordOfPacket]

theorem outTrywrite (p : Packet) : Statement (.outTrywrite p) :=
  ⟨by change 0x00 ∈ definedOps; decide, by change unitOf 0x00 ≤ 5; decide, by change funcOf 0x00 ≤ 4; decide, wordOfPacket_masked p⟩

theorem outTryread : Statement .outTryread := by unfold Statement; decide

theorem outClear : Statement .outClear := by unfold Statement; decide

theorem outFreespace : Statement .outFreespace := by unfold Statement; decide

theorem capTrywrite (e : PulseEvent) : Statement (.capTrywrite e) :=
  ⟨by change 0x10 ∈ definedOps; decide, by change unitOf 0x10 ≤ 5; decide, by change funcOf 0x10 ≤ 4; decide, wordOfEvent_masked e⟩

theorem capTryread : Statement .capTryread := by unfold Statement; decide

theorem capClear : Statement .capClear := by unfold Statement; decide

theorem capFreespace : Statement .capFreespace := by unfold Statement; decide

theorem rcvTrywrite (c : Command) : Statement (.rcvTrywrite c) :=
  ⟨by change 0x20 ∈ definedOps; decide, by change unitOf 0x20 ≤ 5; decide, by change funcOf 0x20 ≤ 4; decide, wordOfCommand_masked c⟩

theorem rcvTryread : Statement .rcvTryread := by unfold Statement; decide

theorem rcvClear : Statement .rcvClear := by unfold Statement; decide

theorem rcvFreespace : Statement .rcvFreespace := by unfold Statement; decide

theorem encCanaccept : Statement .encCanaccept := by unfold Statement; decide

theorem encIsidle : Statement .encIsidle := by unfold Statement; decide

theorem encSubmit (c : Command) : Statement (.encSubmit c) :=
  ⟨by change 0x32 ∈ definedOps; decide, by change unitOf 0x32 ≤ 5; decide, by change funcOf 0x32 ≤ 4; decide, wordOfCommand_masked c⟩

theorem encReset : Statement .encReset := by unfold Statement; decide

theorem encStep (t : Ticks) : Statement (.encStep t) :=
  ⟨by change 0x34 ∈ definedOps; decide, by change unitOf 0x34 ≤ 5; decide, by change funcOf 0x34 ≤ 4; decide, wordOfTicks_masked t⟩

theorem decIsidle : Statement .decIsidle := by unfold Statement; decide

theorem decTake : Statement .decTake := by unfold Statement; decide

theorem decReset : Statement .decReset := by unfold Statement; decide

theorem decOnevent (e : PulseEvent) : Statement (.decOnevent e) :=
  ⟨by change 0x43 ∈ definedOps; decide, by change unitOf 0x43 ≤ 5; decide, by change funcOf 0x43 ≤ 4; decide, wordOfEvent_masked e⟩

theorem tmrTick : Statement .tmrTick := by unfold Statement; decide

end Sys2Proof.Laws.Port
end

