-- ==== Sys2Proof/Tests/Slice0.lean ====
section
/-! SUPPORT. The model's own tests: the WellFormed smoke test, every operation's OP written out from 30_encoding.md R83, single steps
from the vectors of spec/95_test_vectors.md (named in each comment; the expected values are the vectors'), and for every
statement with hypotheses a witness that meets them. -/

namespace Sys2Proof.Tests

open Sys2Proof.Machine

/-! ### Helpers -/

/-- The next state of an outcome, if it is one. -/
def after (o : Outcome) : Option State :=
  match o with
  | .next t => some t
  | .fault _ => none
  | .refused _ => none

/-- One step on a presentation `ctx: OP:DIN`. -/
def run1 (s : State) (ctx : Ctx) (op : Byte) (din : Word) : Option State :=
  after (step { s with port := [{ ctx, op, din }] })

/-- Reset, seen from the ISR. -/
def isrReset : State := { State.reset with ctx := .isr }

/-- Reset with an encoder in a given status, message, position and repeat count, sending `[00, FF, 46, B9]`. -/
def encAt (status : EncStatus) (kind : MessageKind) (cb : Fin 5) (pbc : Fin 9) (rep : Byte) : State :=
  { State.reset with
    enc := { State.reset.enc with
      status := status
      messageKind := kind
      currentByte := cb
      pendingBitCount := pbc
      repeatCount := rep
      packetBuffer := pkt 0x00 0xFF 0x46 0xB9 } }

/-- Reset with a decoder in a given message, cached burst, accumulator, bit count and byte index, holding `[12, 34]`. -/
def decAt (kind : MessageKind) (lb : PulseLength) (acc : Byte) (bits : Fin 8) (bidx : Byte) : State :=
  { State.reset with
    dec := {
      messageKind := kind
      lastBurstLength := lb
      bitAccumulator := acc
      pendingBitCount := bits
      byteIndex := bidx
      decodedCommand := cmd 0x12 0x34 } }

/-- Reset with two packets in OUT. -/
def fullOut : State := { State.reset with out := [pkt 0x01 0xFE 0x02 0xFD, pkt 0x03 0xFC 0x04 0xFB] }

/-- Reset with 16 events in CAP. -/
def fullCap : State := { State.reset with cap := List.replicate 16 (burst 1) }

/-- Reset with 8 commands in RCV. -/
def fullRcv : State := { State.reset with rcv := List.replicate 8 (cmd 0x00 0x01) }

/-! ### WellFormed smoke: with a smaller sentinel an event past it is ill formed, in both operations that carry one -/

theorem test_wellFormed_cap : wellFormedFor 1510 (.capTrywrite (pause 1511)) = false := by decide
theorem test_wellFormed_dec : wellFormedFor 1510 (.decOnevent (burst 0x7FFF)) = false := by decide
theorem test_wellFormed_bound : wellFormedFor 1510 (.decOnevent (pause 1510)) = true := by decide

/-! ### Decoding: each OP of R83 with a DIN of R85, as the table numbers their bits (DIN above the OP byte) -/

theorem test_decode_outTrywrite :
    decodeTableWord 40 0x4433221100 = some (.outTrywrite (pkt 0x11 0x22 0x33 0x44)) := by decide
theorem test_decode_outTryread : decodeTableWord 8 0x01 = some .outTryread := by decide
theorem test_decode_outClear : decodeTableWord 8 0x02 = some .outClear := by decide
theorem test_decode_outFreespace : decodeTableWord 8 0x03 = some .outFreespace := by decide
theorem test_decode_capTrywrite : decodeTableWord 40 0x0000801010 = some (.capTrywrite (burst 16)) := by decide
theorem test_decode_capTryread : decodeTableWord 8 0x11 = some .capTryread := by decide
theorem test_decode_capClear : decodeTableWord 8 0x12 = some .capClear := by decide
theorem test_decode_capFreespace : decodeTableWord 8 0x13 = some .capFreespace := by decide
theorem test_decode_rcvTrywrite : decodeTableWord 40 0x0000010220 = some (.rcvTrywrite (cmd 0x02 0x01)) := by decide
theorem test_decode_rcvTryread : decodeTableWord 8 0x21 = some .rcvTryread := by decide
theorem test_decode_rcvClear : decodeTableWord 8 0x22 = some .rcvClear := by decide
theorem test_decode_rcvFreespace : decodeTableWord 8 0x23 = some .rcvFreespace := by decide
theorem test_decode_encCanaccept : decodeTableWord 8 0x30 = some .encCanaccept := by decide
theorem test_decode_encIsidle : decodeTableWord 8 0x31 = some .encIsidle := by decide
theorem test_decode_encSubmit : decodeTableWord 40 0x0000460032 = some (.encSubmit (cmd 0x00 0x46)) := by decide
theorem test_decode_encReset : decodeTableWord 8 0x33 = some .encReset := by decide
theorem test_decode_encStep : decodeTableWord 40 0x0000123434 = some (.encStep 0x1234) := by decide
theorem test_decode_decIsidle : decodeTableWord 8 0x40 = some .decIsidle := by decide
theorem test_decode_decTake : decodeTableWord 8 0x41 = some .decTake := by decide
theorem test_decode_decReset : decodeTableWord 8 0x42 = some .decReset := by decide
theorem test_decode_decOnevent : decodeTableWord 40 0x0000801643 = some (.decOnevent (burst 22)) := by decide
theorem test_decode_tmrTick : decodeTableWord 8 0x50 = some .tmrTick := by decide

/-- RV1, RV2. -/
theorem test_decode_undefined :
    [0x60, 0x35, 0x44, 0x51, 0x04].map (decodeTableWord 8) = [none, none, none, none, none] := by decide

/-- R90: the encoded form of a line; R92's first and last examples. -/
theorem test_encodedForm :
    encodedForm (.encSubmit (cmd 0x00 0x46)) = "32:00004600" ∧ encodedForm (.encStep 0) = "34:00000000" := by decide

/-- A table word runs as the very next step, from the context its operation needs. -/
theorem test_withFetchWord :
    (after (step (State.reset.withFetchWord 8 0x50))).map (·.results) = some [⟨true, 0⟩] ∧
    (after (step (State.reset.withFetchWord 8 0x34))).map (·.results) = some [⟨true, 0⟩] := by decide

/-! ### Queues (95_test_vectors.md 2.1) -/

/-- QV2, QV3. -/
theorem test_outTrywrite :
    (run1 State.reset .poll 0x00 0x44332211).map (fun t => (t.out, t.results)) =
      some ([pkt 0x11 0x22 0x33 0x44], [⟨true, 0⟩]) ∧
    (run1 fullOut .poll 0x00 0xCCBBAA99).map (fun t => (t.out, t.results)) = some (fullOut.out, [⟨false, 0⟩]) := by
  decide

/-- QV12, QV4. -/
theorem test_outTryread :
    (run1 { State.reset with out := [pkt 0x00 0xFF 0x46 0xB9] } .poll 0x01 0).map (fun t => (t.out, t.results)) =
      some ([], [⟨true, 0xB946FF00⟩]) ∧
    (run1 State.reset .poll 0x01 0).map (fun t => (t.out, t.results)) = some ([], [⟨false, 0⟩]) := by decide

/-- R113, from either context. -/
theorem test_outClear : (run1 fullOut .isr 0x02 0).map (fun t => (t.out, t.results)) = some ([], [⟨true, 0⟩]) := by decide

/-- QV1, QV5, and R114's example. -/
theorem test_outFreespace :
    (run1 State.reset .poll 0x03 0).map (·.results) = some [⟨true, 8⟩] ∧
    (run1 { State.reset with out := [pkt 1 2 3 4] } .isr 0x03 0).map (·.results) = some [⟨true, 4⟩] := by decide

/-- DV23, and QV6's last write. -/
theorem test_capTrywrite :
    (run1 State.reset .isr 0x10 0x00007FFF).map (fun t => (t.cap, t.results)) = some ([pause 0x7FFF], [⟨true, 0⟩]) ∧
    (run1 fullCap .isr 0x10 0x00008011).map (fun t => (t.cap, t.results)) = some (fullCap.cap, [⟨false, 0⟩]) := by
  decide

/-- QV7, QV8. -/
theorem test_capTryread :
    (run1 { State.reset with cap := [burst 1, burst 2] } .poll 0x11 0).map (fun t => (t.cap, t.results)) =
      some ([burst 2], [⟨true, 0x8001⟩]) ∧
    (run1 State.reset .poll 0x11 0).map (·.results) = some [⟨false, 0⟩] := by decide

/-- QV8. -/
theorem test_capClear : (run1 fullCap .isr 0x12 0).map (fun t => (t.cap, t.results)) = some ([], [⟨true, 0⟩]) := by decide

/-- QV8, and R118's example. -/
theorem test_capFreespace :
    (run1 State.reset .poll 0x13 0).map (·.results) = some [⟨true, 0x20⟩] ∧
    (run1 { State.reset with cap := [burst 1, pause 2, burst 3] } .poll 0x13 0).map (·.results) =
      some [⟨true, 26⟩] := by decide

/-- QV9. -/
theorem test_rcvTrywrite :
    (run1 State.reset .poll 0x20 0x00000107).map (fun t => (t.rcv, t.results)) = some ([cmd 0x07 0x01], [⟨true, 0⟩]) ∧
    (run1 fullRcv .poll 0x20 0x00000108).map (fun t => (t.rcv, t.results)) = some (fullRcv.rcv, [⟨false, 0⟩]) := by
  decide

/-- QV10. -/
theorem test_rcvTryread :
    (run1 { State.reset with rcv := [cmd 0x00 0x01, cmd 0x01 0x01] } .poll 0x21 0).map (fun t => (t.rcv, t.results)) =
      some ([cmd 0x01 0x01], [⟨true, 0x0100⟩]) := by decide

/-- QV11. -/
theorem test_rcvClear : (run1 fullRcv .poll 0x22 0).map (fun t => (t.rcv, t.results)) = some ([], [⟨true, 0⟩]) := by decide

/-- QV9, DV22. -/
theorem test_rcvFreespace :
    (run1 State.reset .poll 0x23 0).map (·.results) = some [⟨true, 0x10⟩] ∧
    (run1 { State.reset with rcv := [cmd 0x00 0x46] } .poll 0x23 0).map (·.results) = some [⟨true, 0xE⟩] := by decide

/-! ### Encoder (95_test_vectors.md 2.2) -/

/-- EV2, L1-3. -/
theorem test_encCanaccept :
    (run1 State.reset .poll 0x30 0).map (·.results) = some [⟨true, 0⟩] ∧
    (run1 fullOut .poll 0x30 0).map (·.results) = some [⟨false, 0⟩] := by decide

/-- EV2, EV6. -/
theorem test_encIsidle :
    (run1 State.reset .poll 0x31 0).map (·.results) = some [⟨true, 0⟩] ∧
    (run1 (encAt .leadBurst .command 0 8 0) .poll 0x31 0).map (·.results) = some [⟨false, 0⟩] := by decide

/-- EV3, EV4. -/
theorem test_encSubmit :
    (run1 State.reset .poll 0x32 0x00004600).map (·.out) = some [pkt 0x00 0xFF 0x46 0xB9] ∧
    (run1 State.reset .poll 0x32 0x0000ABCD).map (·.out) = some [pkt 0xCD 0x32 0xAB 0x54] := by decide

/-- EV21. -/
theorem test_encReset :
    (run1 { encAt .dataBitPause .command 0 7 3 with outMode := .pause, countdown := 21 } .poll 0x33 0).map
        (fun t => (t.enc, t.outMode, t.countdown, t.trace)) =
      some ((encAt .idle .none 0 7 0).enc, .pause, 21, []) := by decide

/-- EV5. -/
theorem test_encStep_start :
    let t := run1 { fullOut with out := [pkt 0x00 0xFF 0x46 0xB9, pkt 0xCD 0x32 0xAB 0x54] } .poll 0x34 0x1234
    t.map (·.enc) = some { (encAt .leadBurst .command 0 8 0).enc with remainingTicks := 0x1234 } ∧
    t.map (·.out) = some [pkt 0xCD 0x32 0xAB 0x54] ∧ t.map (·.countdown) = some 342 ∧ t.map (·.outMode) = some .burst ∧
    t.map (·.trace) = some [.burst 342] ∧ t.map (·.results) = some [⟨true, 1⟩] := by decide

/-- EV11, EV12, EV13: the last bit of byte 0, the first of FF, the last of B9. -/
theorem test_encStep_bits :
    (run1 (encAt .dataBitBurst .command 0 1 0) .poll 0x34 0).map (fun t => (t.enc, t.trace)) =
      some ((encAt .dataBitPause .command 1 8 0).enc, [.pause 21]) ∧
    (run1 (encAt .dataBitBurst .command 1 8 0) .poll 0x34 0).map (fun t => (t.enc, t.trace)) =
      some ((encAt .dataBitPause .command 1 7 0).enc, [.pause 64]) ∧
    (run1 (encAt .dataBitBurst .command 3 1 0) .poll 0x34 0).map (fun t => (t.enc, t.trace)) =
      some ((encAt .dataBitPause .command 4 0 0).enc, [.pause 64]) := by decide

/-! ### Decoder (95_test_vectors.md 2.3) -/

/-- DV3, DV5. -/
theorem test_decIsidle :
    (run1 State.reset .poll 0x40 0).map (·.results) = some [⟨true, 0⟩] ∧
    (run1 (decAt .command 0 0 0 0) .poll 0x40 0).map (·.results) = some [⟨false, 0⟩] := by decide

/-- R181's example. -/
theorem test_decTake :
    (run1 { State.reset with rcv := [cmd 0x00 0x46] } .poll 0x41 0).map (fun t => (t.rcv, t.results)) =
      some ([], [⟨true, 0x00004600⟩]) := by decide

/-- DV22. -/
theorem test_decReset :
    (run1 { decAt .command 22 0x80 3 2 with rcv := [cmd 0x00 0x46] } .poll 0x42 0).map (fun t => (t.dec, t.rcv)) =
      some (State.reset.dec, [cmd 0x00 0x46]) := by decide

/-- DV4, DV5, DV8, DV10 (its last bit) and DV15. -/
theorem test_decOnevent_reception :
    (run1 State.reset .poll 0x43 0x0000054E).map (·.dec) = some State.reset.dec ∧
    (run1 (decAt .none 9 0xFF 5 3) .poll 0x43 0x0000054F).map (·.dec) = some (decAt .command 9 0 0 0).dec ∧
    (run1 (decAt .command 22 0 0 0) .poll 0x43 0x00000040).map (·.dec) = some (decAt .command 22 0x80 1 0).dec ∧
    (run1 (decAt .command 22 0x2A 7 0) .poll 0x43 0x00000015).map (·.dec) =
      some { (decAt .command 22 0 0 1).dec with decodedCommand := cmd 0x15 0x34 } ∧
    (run1 (decAt .command 22 0 0 1) .poll 0x43 0x000000C8).map (·.dec) = some State.reset.dec := by decide

/-- DV19 (the delivering burst), DV17 (into a full RCV) and DV21 (the overlap of two windows). -/
theorem test_decOnevent_delivery :
    (run1 (decAt .keypress 342 0 0 0) .poll 0x43 0x00008016).map (fun t => (t.rcv, t.dec.messageKind)) =
      some ([cmd 0x12 0x34], .none) ∧
    (run1 { decAt .keypress 342 0 0 0 with rcv := fullRcv.rcv } .poll 0x43 0x00008016).map
        (fun t => (t.rcv, t.dec.messageKind)) = some (fullRcv.rcv, .none) ∧
    (run1 (decAt .command 342 0 0 0) .poll 0x43 0x0000007B).map (·.dec.messageKind) = some .keypress := by decide

/-- L1-7: the boundaries of every window. -/
theorem test_classify :
    [0, 38, 39, 43, 47, 48, 76, 77, 86, 95, 96].map classify =
      [.invalidPulse, .invalidPulse, .bitLow, .bitLow, .bitLow, .invalidPulse, .invalidPulse, .bitHigh, .bitHigh,
        .bitHigh, .invalidPulse] ∧
    [381, 382, 425, 461, 462, 468, 469, 513, 564, 565, 0xFFFE].map classify =
      [.invalidPulse, .keypressStart, .keypressStart, .keypressStart, .keypressStart, .keypressStart, .commandStart,
        .commandStart, .commandStart, .invalidPulse, .invalidPulse] := by decide

/-! ### Timer and refusals (95_test_vectors.md 2.4, 2.5) -/

/-- TV1, TV2. -/
theorem test_tmrTick :
    (run1 State.reset .isr 0x50 0).map (fun t => (t.countdown, t.results)) = some (0, [⟨true, 0⟩]) ∧
    (run1 { State.reset with countdown := 2 } .isr 0x50 0).map (fun t => (t.countdown, t.results)) =
      some (1, [⟨true, 1⟩]) := by decide

/-- RV1, RV3 to RV6. -/
theorem test_refusals :
    step { State.reset with port := [⟨.poll, 0x60, 0⟩] } = .refused (.undefinedOp 0x60) ∧
    step { State.reset with port := [⟨.isr, 0x34, 0⟩] } = .refused (.wrongContext "ENC.STEP" .isr) ∧
    step { State.reset with port := [⟨.poll, 0x50, 0⟩] } = .refused (.wrongContext "TMR.TICK" .poll) ∧
    step { State.reset with port := [⟨.poll, 0x10, 0x8016⟩] } = .refused (.wrongContext "CAP.TRYWRITE" .poll) ∧
    step { State.reset with port := [⟨.isr, 0x32, 0x4600⟩] } = .refused (.wrongContext "ENC.SUBMIT" .isr) :=
  ⟨rfl, rfl, rfl, rfl, rfl⟩

/-- R211: the measured length saturates at the sentinel; a 40000-tick silence is DV23's presentation. -/
theorem test_edgePresentation : edgePresentation false 40000 = { ctx := .isr, op := 0x10, din := 0x00007FFF } := by decide

/-- R84, R199, R211: a pulse above the sentinel is replayed at the sentinel, one at it or below at its own length. -/
theorem test_entryEvent_saturates :
    [TraceEntry.pause 0x8001, .pause 0x7FFF, .pause 3659, .burst 342, .stop].map entryEvent =
      [some (pause 0x7FFF), some (pause 0x7FFF), some (pause 3659), some (burst 342), none] := by decide

/-- R257, R254: no event is taken from CAP during a transmission, nor while the clear after it is owed. -/
theorem test_duties_capTryread :
    keepsDuties dutyAtReset (encAt .leadPause .command 0 8 0) .capTryread = false ∧
    keepsDuties { clearOwed := true, taken := [] } State.reset .capTryread = false ∧
    keepsDuties dutyAtReset State.reset .capTryread = true := by decide

/-- R255, R254: a SUBMIT with OUT full breaks a duty, and CAP.CLEAR, from either context, discharges the clear that is owed. -/
theorem test_duties_submit_clear :
    keepsDuties dutyAtReset fullOut (.encSubmit (cmd 0x05 0x06)) = false ∧
    keepsDuties dutyAtReset State.reset (.encSubmit (cmd 0x05 0x06)) = true ∧
    (dutyAfter { clearOwed := true, taken := [] } State.reset .capClear).clearOwed = false ∧
    (dutyAfter { clearOwed := true, taken := [] } isrReset .capClear).clearOwed = false := by decide

/-- R91: RUNPULSE in a state with countdown 2 is two ticks and a STEP with operand 0. -/
theorem test_runPulse :
    runPulsePresentations { State.reset with countdown := 2 } =
      [⟨.isr, 0x50, 0⟩, ⟨.isr, 0x50, 0⟩, ⟨.poll, 0x34, 0⟩] := by decide

/-! ### Witnesses: the hypotheses of each statement can be met, clause by clause -/

theorem witness_DecodeOfEncodeIsIdentity :
    (Instr.capTrywrite (burst 0x7FFF)).wellFormed = true ∧ Instr.outTryread.wellFormed = true := by decide

theorem witness_EncodeOfDecodeKeepsReadBits : decode 0x43 0xFFFF8016 = .ok (.decOnevent (burst 22)) := rfl

theorem witness_UnusedDinBitsAreIgnored :
    decode 0x34 0xABCD0005 = .ok (.encStep 5) ∧
    (0xABCD0005 : Word) &&& dinMask (.encStep 5) = 0x12340005 &&& dinMask (.encStep 5) := ⟨rfl, by decide⟩

theorem witness_UndefinedOperationsAreRefused :
    ({ State.reset with port := [⟨.poll, 0xFF, 0⟩] } : State).port = [⟨.poll, 0xFF, 0⟩] ∧
    (∀ op ∈ [0x04, 0x0F, 0x14, 0x24, 0x35, 0x3F, 0x44, 0x51, 0x5F, 0x60, 0xFF], op ∉ definedOps) ∧
    (ctxRuleOf .tmrTick).allows State.reset.ctx = false ∧ (ctxRuleOf (.encStep 0)).allows isrReset.ctx = false :=
  ⟨rfl, by decide, by decide, by decide⟩

theorem witness_PulseEventWord_PortByteOrder :
    (0x7FFE < 0x7FFF ∧ ¬ 0x7FFF < 0x7FFF) ∧ (0 < 4 ∧ 3 < 4) := by decide

theorem witness_StepRunsTheDecodedOperation :
    ({ State.reset with port := [⟨.isr, 0x50, 7⟩] } : State).port = [⟨.isr, 0x50, 7⟩] ∧
    decode 0x50 7 = .ok .tmrTick ∧ Instr.tmrTick.wellFormed = true := ⟨rfl, rfl, by decide⟩

theorem witness_StepWaitsOnAnEmptyPort : State.reset.port = [] := rfl

theorem witness_ThreeResets : State.reset.ctx = .poll := rfl

theorem witness_StepKeepsTheInvariant :
    Inv { State.reset with port := [⟨.poll, 0x34, 0⟩] } ∧
    (after (step { State.reset with port := [⟨.poll, 0x34, 0⟩] })).isSome = true := by decide

theorem witness_ReachableEncoderStates :
    ∃ t, Sys2Proof.core.run 2 { State.reset with port := [⟨.poll, 0x32, 0x4600⟩, ⟨.poll, 0x34, 0⟩] } = .next t ∧
      t.enc.status = .leadBurst := ⟨_, rfl, rfl⟩

theorem witness_ContextTable :
    (State.reset.ctx = .poll ∧ Instr.encStep 0 ≠ .tmrTick ∧ ∀ e, Instr.encStep 0 ≠ .capTrywrite e) ∧
    (isrReset.ctx = .isr ∧ Instr.outClear ∈ [Instr.outClear, .capClear]) ∧
    (Instr.encStep 0 ∉ [Instr.outClear, .capClear, .rcvClear, .outFreespace, .capFreespace, .rcvFreespace]) :=
  ⟨⟨rfl, by decide, fun _ h => by cases h⟩, ⟨rfl, by decide⟩, by decide⟩

theorem witness_EveryOperationCompletes :
    (ctxRuleOf .rcvClear).allows isrReset.ctx = true ∧ (ctxRuleOf .rcvTryread).allows State.reset.ctx = true := by decide

/-- Also of RepeatCountNeverRises, QueuesAreFirstInFirstOut's first hypothesis and the first part of OnePrimitivePerTransition: a
queue is written, read, cleared and kept. -/
theorem witness_OwnershipOfEveryField :
    (∃ t, exec (.outTrywrite (pkt 1 2 3 4)) State.reset = .next t ∧ t.out ≠ State.reset.out) ∧
    (∃ t, exec (.capTrywrite (burst 1)) isrReset = .next t ∧ t.cap ≠ isrReset.cap) ∧
    (∃ t, exec .rcvClear fullRcv = .next t ∧ t.rcv ≠ fullRcv.rcv) ∧
    (∃ t, exec (.encStep 0) fullOut = .next t ∧ t.countdown ≠ fullOut.countdown ∧ t.outMode ≠ fullOut.outMode) :=
  ⟨⟨_, rfl, by decide⟩, ⟨_, rfl, by decide⟩, ⟨_, rfl, by decide⟩, ⟨_, rfl, by decide, by decide⟩⟩

theorem witness_OnePrimitivePerTransition :
    (∃ t, exec .encReset (encAt .leadPause .command 0 8 0) = .next t ∧ ∀ rt, Instr.encReset ≠ .encStep rt) ∧
    (∃ t, exec (.encStep 5) (encAt .leadPause .command 0 8 0) = .next t ∧ t.enc.status = .leadPause) ∧
    (∃ t, exec (.encStep 0) (encAt .leadPause .command 0 8 0) = .next t ∧ t.enc.status ≠ .leadPause) ∧
    (∃ t, exec (.encStep 0) (encAt .trailingBurst .keypress 4 0 0) = .next t ∧ t.enc.status ≠ .trailingBurst) :=
  ⟨⟨_, rfl, fun _ h => by cases h⟩, ⟨_, rfl, rfl⟩, ⟨_, rfl, by decide⟩, ⟨_, rfl, by decide⟩⟩

theorem witness_RepeatCountNeverRises :
    ∃ t, exec (.encStep 0) (encAt .trailingBurst .keypress 4 0 1) = .next t ∧ t.enc.repeatCount = 0 := ⟨_, rfl, rfl⟩

theorem witness_QueriesChangeNothing :
    Instr.capFreespace ∈ [Instr.outFreespace, .capFreespace, .rcvFreespace] ∧
    (Instr.encIsidle ∈ [Instr.encCanaccept, .encIsidle, .decIsidle] ∧ State.reset.ctx = .poll) := by decide

/-- Both branches of each write are met: an empty and a full queue. -/
theorem witness_QueueWrites :
    (State.reset.ctx = .poll ∧ isrReset.ctx = .isr) ∧ (State.reset.out.length < 2 ∧ ¬ fullOut.out.length < 2) ∧
    (isrReset.cap.length < 16 ∧ ¬ fullCap.cap.length < 16) ∧ (State.reset.rcv.length < 8 ∧ ¬ fullRcv.rcv.length < 8) := by
  decide

theorem witness_QueueReadsTakeTheOldest :
    (fullOut.ctx = .poll ∧ fullOut.out = pkt 0x01 0xFE 0x02 0xFD :: [pkt 0x03 0xFC 0x04 0xFB]) ∧
    (fullCap.ctx = .poll ∧ fullCap.cap = burst 1 :: List.replicate 15 (burst 1)) ∧
    (fullRcv.ctx = .poll ∧ fullRcv.rcv = cmd 0x00 0x01 :: List.replicate 7 (cmd 0x00 0x01)) := by decide

theorem witness_FailedReadsChangeNothing :
    State.reset.ctx = .poll ∧ State.reset.out = [] ∧ State.reset.cap = [] ∧ State.reset.rcv = [] := by decide

theorem witness_QueueFreeSpace : fullOut.out.length ≤ 2 ∧ State.reset.out.length ≤ 2 := by decide

theorem witness_QueuesAreFirstInFirstOut :
    (∃ t, exec .outTryread fullOut = .next t ∧
      ({ written := fullOut.out, readOut := [] } : FifoRecord Packet).written = [] ++ fullOut.out) ∧
    (∃ t, exec .capTryread fullCap = .next t ∧
      ({ written := pause 9 :: fullCap.cap, readOut := [pause 9] } : FifoRecord PulseEvent).written =
        [pause 9] ++ fullCap.cap) ∧
    (∃ t, exec .decTake fullRcv = .next t ∧
      ({ written := fullRcv.rcv, readOut := [] } : FifoRecord Command).written = [] ++ fullRcv.rcv) :=
  ⟨⟨_, rfl, rfl⟩, ⟨_, rfl, rfl⟩, ⟨_, rfl, rfl⟩⟩

theorem witness_ThirdPacketIsDropped :
    fullOut.ctx = .poll ∧ fullOut.out = [pkt 0x01 0xFE 0x02 0xFD, pkt 0x03 0xFC 0x04 0xFB] ∧
    fullOut.enc.status = .idle := by decide

theorem witness_QueriesAnswer_SubmitBuildsThePacket :
    State.reset.ctx = .poll ∧ State.reset.out.length < 2 ∧ fullOut.ctx = .poll ∧ ¬ fullOut.out.length < 2 := by decide

theorem witness_StepInIdle :
    (fullOut.ctx = .poll ∧ fullOut.enc.status = .idle ∧ fullOut.out = pkt 0x01 0xFE 0x02 0xFD :: fullOut.out.tail) ∧
    (State.reset.ctx = .poll ∧ State.reset.enc.status = .idle ∧ State.reset.out = []) := by decide

theorem witness_StepWhileAPulseRuns :
    (encAt .intervalPause .keypress 4 0 0).ctx = .poll ∧ (encAt .intervalPause .keypress 4 0 0).enc.status ≠ .idle ∧
    (0xFFFF : Ticks) ≠ 0 ∧ (1 : Ticks) ≠ 0 := by decide

theorem witness_LeadBurstToLeadPause :
    (∃ n : Ticks, (encAt .leadBurst .command 0 8 0).enc.messageKind = .command ∧ n = 171) ∧
    (∃ n : Ticks, (encAt .leadBurst .keypress 4 0 0).enc.messageKind = .keypress ∧ n = 83) :=
  ⟨⟨171, rfl, rfl⟩, ⟨83, rfl, rfl⟩⟩

theorem witness_LeadPauseToBurst :
    (∃ next, (encAt .leadPause .command 0 8 0).enc.messageKind = .command ∧ next = EncStatus.dataBitBurst) ∧
    (∃ next, (encAt .leadPause .keypress 4 0 0).enc.messageKind = .keypress ∧ next = EncStatus.trailingBurst) :=
  ⟨⟨_, rfl, rfl⟩, ⟨_, rfl, rfl⟩⟩

/-- At the first bit, at a byte's last bit and at the packet's last bit. -/
theorem witness_DataBitBurstToPause :
    (∀ s ∈ [encAt .dataBitBurst .command 0 8 0, encAt .dataBitBurst .command 2 1 0, encAt .dataBitBurst .command 3 1 0],
      s.ctx = .poll ∧ s.enc.status = .dataBitBurst ∧ s.enc.currentByte.val ≤ 3 ∧ 1 ≤ s.enc.pendingBitCount.val) := by
  decide

theorem witness_DataBitBurstOutsideThePacket :
    ((encAt .dataBitBurst .command 4 0 0).enc.currentByte.val = 4) ∧
    ((encAt .dataBitBurst .command 0 0 0).enc.pendingBitCount.val = 0) ∧
    (encAt .dataBitBurst .command 4 0 0).ctx = .poll := by decide

theorem witness_DataBitPauseToBurst :
    ((encAt .dataBitPause .command 3 1 0).enc.currentByte.val < 4) ∧
    ((encAt .dataBitPause .command 4 0 0).enc.currentByte.val = 4) ∧
    (encAt .dataBitPause .command 4 0 0).ctx = .poll := by decide

theorem witness_TrailingBurstToInterval :
    ((encAt .trailingBurst .command 4 0 0).enc.messageKind = .command) ∧
    ((encAt .trailingBurst .keypress 4 0 1).enc.messageKind = .keypress ∧
      0 < (encAt .trailingBurst .keypress 4 0 1).enc.repeatCount.toNat) ∧
    (encAt .trailingBurst .keypress 4 0 255).ctx = .poll := by decide

theorem witness_TrailingBurstEnds :
    (encAt .trailingBurst .keypress 4 0 0).ctx = .poll ∧
    (encAt .trailingBurst .keypress 4 0 0).enc.status = .trailingBurst ∧
    (encAt .trailingBurst .keypress 4 0 0).enc.messageKind = .keypress ∧
    (encAt .trailingBurst .keypress 4 0 0).enc.repeatCount = 0 := by decide

theorem witness_IntervalPauseToLeadBurst :
    (encAt .intervalPause .keypress 4 0 0).ctx = .poll ∧
    (encAt .intervalPause .keypress 4 0 0).enc.status = .intervalPause ∧
    (encAt .intervalPause .keypress 4 0 0).enc.messageKind = .keypress := by decide

/-- From a status, from Idle without a packet, and from Idle with one. -/
theorem witness_TransmissionOwesItsTrace :
    (EncInv (encAt .dataBitBurst .command 3 1 2).enc ∧
      ∃ t, exec (.encStep 0) (encAt .dataBitBurst .command 3 1 2) = .next t ∧ t.enc.status = .dataBitPause) ∧
    (EncInv State.reset.enc ∧ ∃ t, exec (.encStep 0) State.reset = .next t ∧ t.enc.status = .idle) ∧
    (∃ t, exec (.encStep 0) fullOut = .next t ∧ t.enc.status ≠ .idle) :=
  ⟨⟨by decide, _, rfl, rfl⟩, ⟨by decide, _, rfl, rfl⟩, ⟨_, rfl, by decide⟩⟩

theorem witness_TraceOfOnePacket :
    fullOut.ctx = .poll ∧ fullOut.enc.status = .idle ∧ fullOut.out = pkt 0x01 0xFE 0x02 0xFD :: fullOut.out.tail ∧
    (255 : Nat) = ({ fullOut with enc := (encAt .idle .none 0 0 255).enc } : State).enc.repeatCount.toNat := by decide

theorem witness_EventsInIdle :
    State.reset.ctx = .poll ∧ State.reset.dec.messageKind = .none ∧
    ((pause 1359).isBurst = false ∧ 1359 ≤ (pause 1359).length.toNat) ∧ ¬ 1359 ≤ (pause 1358).length.toNat := by decide

theorem witness_BurstsInCommand :
    (decAt .command 0 0 0 3).dec.byteIndex.toNat < 4 ∧ ¬ (decAt .command 0 0 0 4).dec.byteIndex.toNat < 4 ∧
    (decAt .command 0 0 0 4).ctx = .poll ∧ (decAt .command 0 0 0 4).dec.messageKind = .command ∧
    (burst 22).isBurst = true := by decide

/-- The four ends of the two bit windows, before and at the 8th bit. -/
theorem witness_BitsInCommand :
    ([17, 25, 55, 73] : List PulseLength).map
        (fun l => (decAt .command 22 0 0 0).dec.lastBurstLength.toNat + (pause l).length.toNat) = [39, 47, 77, 95] ∧
    (decAt .command 22 0 6 0).dec.pendingBitCount.val = 6 ∧ (decAt .command 22 0 7 255).dec.pendingBitCount.val = 7 ∧
    (decAt .command 22 0 7 2).dec.messageKind = .command ∧ (decAt .command 22 0 7 2).ctx = .poll := by decide

theorem witness_EightBitsAssembleAByte :
    (decAt .command 0 0xFF 0 3).ctx = .poll ∧ (decAt .command 0 0xFF 0 3).dec.messageKind = .command ∧
    (decAt .command 0 0xFF 0 3).dec.pendingBitCount = 0 ∧ (decAt .command 0 0xFF 0 3).dec.byteIndex.toNat < 4 := by
  decide

/-- The ends of the two lead windows, and a total in each part of the invalid range. -/
theorem witness_OtherPausesInCommand :
    (∀ total ∈ [382, 468], 382 ≤ total ∧ total ≤ 468) ∧ (∀ total ∈ [469, 564], 469 ≤ total ∧ total ≤ 564) ∧
    (∀ total ∈ [0, 38, 48, 76, 96, 381, 565, 0xFFFE],
      total < 39 ∨ (48 ≤ total ∧ total ≤ 76) ∨ (96 ≤ total ∧ total ≤ 381) ∨ 565 ≤ total) ∧
    (382 = (decAt .command 342 0 0 0).dec.lastBurstLength.toNat + (pause 40).length.toNat) ∧
    (0 < (decAt .command 342 0 0 1).dec.byteIndex.toNat ∧ ¬ 0 < (decAt .command 342 0 0 0).dec.byteIndex.toNat) := by
  decide

theorem witness_EventsInKeypress :
    (decAt .keypress 342 0 0 0).ctx = .poll ∧ (decAt .keypress 342 0 0 0).dec.messageKind = .keypress ∧
    (burst 22).isBurst = true ∧ (pause 50).isBurst = false ∧ State.reset.rcv.length < 8 ∧ ¬ fullRcv.rcv.length < 8 := by
  decide

/-- By a trailing burst, by a keypress lead, by an invalid pulse, and by DEC.RESET. -/
theorem witness_DecoderLeavesCommandOnlyBy :
    (∃ t, exec (.decOnevent (burst 22)) (decAt .command 22 0 0 4) = .next t ∧ t.dec.messageKind ≠ .command) ∧
    (∃ t, exec (.decOnevent (pause 83)) (decAt .command 342 0 0 0) = .next t ∧ t.dec.messageKind ≠ .command) ∧
    (∃ t, exec (.decOnevent (pause 200)) (decAt .command 22 0 0 1) = .next t ∧ t.dec.messageKind ≠ .command) ∧
    (∃ t, exec .decReset (decAt .command 22 0 0 1) = .next t ∧ t.dec.messageKind ≠ .command) :=
  ⟨⟨_, rfl, by decide⟩, ⟨_, rfl, by decide⟩, ⟨_, rfl, by decide⟩, ⟨_, rfl, by decide⟩⟩

theorem witness_DeliveryOnlyAfterAKeypress :
    (after (exec (.decOnevent (burst 22)) (decAt .keypress 342 0 0 0))).map (·.rcv) = some [cmd 0x12 0x34] ∧
    (after (exec (.rcvTrywrite (cmd 1 2)) State.reset)).map (·.rcv) = some [cmd 1 2] ∧
    (after (exec .decReset fullRcv)).map (·.rcv) = some fullRcv.rcv := by decide

theorem witness_ComplementBytesAreNotChecked :
    State.reset.ctx = .poll ∧ State.reset.dec.messageKind = .none ∧ State.reset.rcv.length < 8 ∧
    1359 ≤ (1359 : PulseLength).toNat ∧ 1359 ≤ (0x7FFF : PulseLength).toNat := by decide

theorem witness_TransmitReceiveRoundTrip :
    State.reset.ctx = .poll ∧ State.reset.enc.status = .idle ∧ State.reset.enc.repeatCount = 0 ∧ State.reset.out = [] ∧
    State.reset.dec.messageKind = .none ∧ State.reset.rcv.length < 8 ∧ 1359 ≤ (1359 : PulseLength).toNat := by decide

/-- With no repeat and with the most; RCV empty and full. -/
theorem witness_RoundTripWithRepeats :
    (∀ rep ∈ ([0, 255] : List Byte),
      (encAt .idle .none 0 0 rep).ctx = .poll ∧ (encAt .idle .none 0 0 rep).enc.status = .idle ∧
      rep.toNat = (encAt .idle .none 0 0 rep).enc.repeatCount.toNat ∧ (encAt .idle .none 0 0 rep).out = [] ∧
      (encAt .idle .none 0 0 rep).dec.messageKind = .none) ∧
    1359 ≤ (0x7FFF : PulseLength).toNat ∧ 8 - State.reset.rcv.length = 8 ∧ 8 - fullRcv.rcv.length = 0 := by decide

theorem witness_TickCountsDown :
    isrReset.ctx = .isr ∧ State.reset.ctx = .poll ∧ (0 : Ticks).toNat = isrReset.countdown.toNat - 1 ∧
    (0xFFFE : Ticks).toNat = ({ isrReset with countdown := 0xFFFF } : State).countdown.toNat - 1 := by decide

theorem witness_TicksRunTheCountdown : isrReset.ctx = .isr := rfl

/-- STEP while the decoder is idle and the encoder busy, and an event taken from CAP while the encoder is idle. -/
theorem witness_DutiesKeepOneMachineIdle :
    (NotBothBusy (encAt .leadPause .command 0 8 0) ∧
      keepsDuties dutyAtReset (encAt .leadPause .command 0 8 0) (.encStep 0) = true) ∧
    (NotBothBusy State.reset ∧
      keepsDuties { clearOwed := false, taken := [pause 1510] } State.reset (.decOnevent (pause 1510)) = true) ∧
    (∃ t, exec (.decOnevent (pause 1510)) State.reset = .next t ∧ t.dec.messageKind = .command) :=
  ⟨⟨by decide, by decide⟩, ⟨by decide, by decide⟩, ⟨_, rfl, rfl⟩⟩

end Sys2Proof.Tests
end

/-! SUPPORT. Who writes which field of the state (10_state.md R39, R41): what each state machine leaves unchanged, then one
lemma per field about `coreEffect`, and the statement O17 assembled from them. -/

namespace Sys2Proof.Machine

/-! ### What a queue operation can do to a queue -/

/-- A queue as one operation may leave it: as it was, emptied, without its oldest element, or with one element appended. No
element is mutated in place (R39). -/
def QueueMove {α : Type} (q q' : List α) : Prop := q' = q ∨ q' = [] ∨ q' = q.tail ∨ ∃ e, q' = q ++ [e]

theorem QueueMove.unchanged {α : Type} (q : List α) : QueueMove q q := .inl rfl

theorem QueueMove.emptied {α : Type} (q : List α) : QueueMove q [] := .inr (.inl rfl)

theorem QueueMove.dequeued {α : Type} (q : List α) : QueueMove q q.tail := .inr (.inr (.inl rfl))

theorem QueueMove.appended {α : Type} (q : List α) (e : α) : QueueMove q (q ++ [e]) := .inr (.inr (.inr ⟨e, rfl⟩))

theorem tryWrite_queueMove {α : Type} (sh : QueueShape) (q : List α) (e : α) : QueueMove q (tryWrite sh q e).2 := by
  rcases tryWrite_cases sh q e with ⟨-, h⟩ | ⟨-, h⟩
  · exact h ▸ QueueMove.appended q e
  · exact h ▸ QueueMove.unchanged q

/-! ### The encoder's frame -/

/-- A transition of the encoder leaves CAP, RCV and the decoder as they were. -/
theorem encTransition_fields (s : State) :
    (encTransition s).1 = { (encTransition s).1 with cap := s.cap, rcv := s.rcv, dec := s.dec } := by
  rcases encTransition_shape s with ⟨-, -, h⟩ | ⟨q, e, n, -, -, ⟨h, -⟩ | ⟨h, -⟩ | ⟨h, -⟩ | ⟨h, -⟩⟩ <;>
    rw [h] <;> rfl

/-- A transition of the encoder takes OUT's oldest packet or leaves OUT as it was. -/
theorem encTransition_out_queueMove (s : State) : QueueMove s.out (encTransition s).1.out := by
  rcases encTransition_shape s with
    ⟨-, -, h⟩ | ⟨q, e, n, -, -, ⟨h, -, hq⟩ | ⟨h, -, rfl⟩ | ⟨h, -, rfl⟩ | ⟨h, -, rfl⟩⟩ <;> rw [h]
  · exact .unchanged s.out
  · rw [hq]
    exact .dequeued (e.packetBuffer :: q)
  all_goals exact .unchanged s.out

/-- ENC.STEP leaves CAP, RCV and the decoder as they were, whether it acts or only records its operand. -/
theorem encStepCore_fields (rt : Ticks) (s : State) :
    (encStepCore rt s).1 = { (encStepCore rt s).1 with cap := s.cap, rcv := s.rcv, dec := s.dec } := by
  rcases encStepCore_cases rt s with ⟨-, -, h⟩ | ⟨-, h⟩ <;> rw [h]
  · rfl
  · exact encTransition_fields (s.withEnc { s.enc with remainingTicks := rt })

@[simp] theorem encStepCore_cap (rt : Ticks) (s : State) : (encStepCore rt s).1.cap = s.cap := by rw [encStepCore_fields]
@[simp] theorem encStepCore_rcv (rt : Ticks) (s : State) : (encStepCore rt s).1.rcv = s.rcv := by rw [encStepCore_fields]
@[simp] theorem encStepCore_dec (rt : Ticks) (s : State) : (encStepCore rt s).1.dec = s.dec := by rw [encStepCore_fields]

theorem encStepCore_out_queueMove (rt : Ticks) (s : State) : QueueMove s.out (encStepCore rt s).1.out := by
  rcases encStepCore_cases rt s with ⟨-, -, h⟩ | ⟨-, h⟩ <;> rw [h]
  · exact .unchanged s.out
  · exact encTransition_out_queueMove (s.withEnc { s.enc with remainingTicks := rt })

/-! ### The decoder's frame -/

/-- DEC.ONEVENT leaves everything but RCV and the decoder as it was. -/
theorem decOnEventCore_fields (e : PulseEvent) (s : State) :
    decOnEventCore e s = { s with rcv := (decOnEventCore e s).rcv, dec := (decOnEventCore e s).dec } := by
  rcases decOnEventCore_cases e s with ⟨d, h⟩ | ⟨-, -, h⟩ <;> rw [h] <;> rfl

@[simp] theorem decOnEventCore_out (e : PulseEvent) (s : State) : (decOnEventCore e s).out = s.out := by
  rw [decOnEventCore_fields]

@[simp] theorem decOnEventCore_cap (e : PulseEvent) (s : State) : (decOnEventCore e s).cap = s.cap := by
  rw [decOnEventCore_fields]

@[simp] theorem decOnEventCore_enc (e : PulseEvent) (s : State) : (decOnEventCore e s).enc = s.enc := by
  rw [decOnEventCore_fields]

@[simp] theorem decOnEventCore_countdown (e : PulseEvent) (s : State) : (decOnEventCore e s).countdown = s.countdown := by
  rw [decOnEventCore_fields]

@[simp] theorem decOnEventCore_outMode (e : PulseEvent) (s : State) : (decOnEventCore e s).outMode = s.outMode := by
  rw [decOnEventCore_fields]

@[simp] theorem decOnEventCore_trace (e : PulseEvent) (s : State) : (decOnEventCore e s).trace = s.trace := by
  rw [decOnEventCore_fields]

/-- DEC.ONEVENT leaves RCV as it was or appends the delivered command. -/
theorem decOnEventCore_rcv_queueMove (e : PulseEvent) (s : State) : QueueMove s.rcv (decOnEventCore e s).rcv := by
  rcases decOnEventCore_cases e s with ⟨d, h⟩ | ⟨-, -, h⟩ <;> rw [h]
  · exact .unchanged s.rcv
  · exact tryWrite_queueMove Config.rcvShape s.rcv s.dec.decodedCommand

/-! ### The two machines' states -/

theorem coreEffect_enc_eq (i : Instr) (s : State) (hreset : i ≠ .encReset) (hstep : ∀ rt, i ≠ .encStep rt) :
    (coreEffect i s).enc = s.enc := by
  cases i with
  | encReset => exact absurd rfl hreset
  | encStep rt => exact absurd rfl (hstep rt)
  | decOnevent e => exact decOnEventCore_enc e s
  | _ => rfl

theorem coreEffect_dec_eq (i : Instr) (s : State) (hreset : i ≠ .decReset) (hevent : ∀ e, i ≠ .decOnevent e) :
    (coreEffect i s).dec = s.dec := by
  cases i with
  | decReset => exact absurd rfl hreset
  | decOnevent e => exact absurd rfl (hevent e)
  | encStep rt => exact encStepCore_dec rt s
  | _ => rfl

/-! ### The queues: no element is mutated in place -/

theorem coreEffect_out_queueMove (i : Instr) (s : State) : QueueMove s.out (coreEffect i s).out := by
  cases i with
  | outTrywrite p => exact tryWrite_queueMove Config.outShape s.out p
  | encSubmit c => exact tryWrite_queueMove Config.outShape s.out (packetOfCommand c)
  | outTryread => exact .dequeued s.out
  | outClear => exact .emptied s.out
  | encStep rt => exact encStepCore_out_queueMove rt s
  | decOnevent e => exact .inl (decOnEventCore_out e s)
  | _ => exact .unchanged s.out

theorem coreEffect_cap_queueMove (i : Instr) (s : State) : QueueMove s.cap (coreEffect i s).cap := by
  cases i with
  | capTrywrite e => exact tryWrite_queueMove Config.capShape s.cap e
  | capTryread => exact .dequeued s.cap
  | capClear => exact .emptied s.cap
  | encStep rt => exact .inl (encStepCore_cap rt s)
  | decOnevent e => exact .inl (decOnEventCore_cap e s)
  | _ => exact .unchanged s.cap

theorem coreEffect_rcv_queueMove (i : Instr) (s : State) : QueueMove s.rcv (coreEffect i s).rcv := by
  cases i with
  | rcvTrywrite c => exact tryWrite_queueMove Config.rcvShape s.rcv c
  | rcvTryread | decTake => exact .dequeued s.rcv
  | rcvClear => exact .emptied s.rcv
  | decOnevent e => exact decOnEventCore_rcv_queueMove e s
  | encStep rt => exact .inl (encStepCore_rcv rt s)
  | _ => exact .unchanged s.rcv

/-! ### The writers of R41: an operation that is none of a field's writers leaves the field as it was -/

theorem out_writers {i : Instr} {s : State} (h : (coreEffect i s).out ≠ s.out) :
    (∃ c, i = .encSubmit c) ∨ (∃ p, i = .outTrywrite p) ∨ (∃ rt, i = .encStep rt) ∨
      i = .outTryread ∨ i = .outClear := by
  cases i with
  | encSubmit | outTrywrite | encStep | outTryread | outClear => simp
  | decOnevent e => exact absurd (decOnEventCore_out e s) h
  | _ => exact absurd rfl h

theorem cap_writers {i : Instr} {s : State} (h : (coreEffect i s).cap ≠ s.cap) :
    (∃ e, i = .capTrywrite e) ∨ i = .capTryread ∨ i = .capClear := by
  cases i with
  | capTrywrite | capTryread | capClear => simp
  | encStep rt => exact absurd (encStepCore_cap rt s) h
  | decOnevent e => exact absurd (decOnEventCore_cap e s) h
  | _ => exact absurd rfl h

theorem rcv_writers {i : Instr} {s : State} (h : (coreEffect i s).rcv ≠ s.rcv) :
    (∃ e, i = .decOnevent e) ∨ (∃ c, i = .rcvTrywrite c) ∨ i = .decTake ∨ i = .rcvTryread ∨ i = .rcvClear := by
  cases i with
  | decOnevent | rcvTrywrite | decTake | rcvTryread | rcvClear => simp
  | encStep rt => exact absurd (encStepCore_rcv rt s) h
  | _ => exact absurd rfl h

theorem countdown_writers {i : Instr} {s : State} (h : (coreEffect i s).countdown ≠ s.countdown) :
    (∃ rt, i = .encStep rt) ∨ i = .tmrTick := by
  cases i with
  | encStep | tmrTick => simp
  | decOnevent e => exact absurd (decOnEventCore_countdown e s) h
  | _ => exact absurd rfl h

/-- Only ENC.STEP calls an environment primitive, so only ENC.STEP writes OUTMODE and TRACE. -/
theorem coreEffect_outMode_trace_eq (i : Instr) (s : State) (hstep : ∀ rt, i ≠ .encStep rt) :
    (coreEffect i s).outMode = s.outMode ∧ (coreEffect i s).trace = s.trace := by
  cases i with
  | encStep rt => exact absurd rfl (hstep rt)
  | decOnevent e => exact ⟨decOnEventCore_outMode e s, decOnEventCore_trace e s⟩
  | _ => exact ⟨rfl, rfl⟩

theorem outMode_trace_writers {i : Instr} {s : State}
    (h : (coreEffect i s).outMode ≠ s.outMode ∨ (coreEffect i s).trace ≠ s.trace) : ∃ rt, i = .encStep rt := by
  by_contra hstep
  obtain ⟨hmode, htrace⟩ := coreEffect_outMode_trace_eq i s (not_exists.1 hstep)
  exact h.elim (absurd hmode) (absurd htrace)

/-! ### The statement -/

/-- Settles O17: an answer appends a result and nothing else, so every clause is about the operation's effect. -/
theorem ownershipOfEveryField : Obligations.OwnershipOfEveryField := by
  intro i s t h
  obtain ⟨-, rfl⟩ := (exec_next_iff i s t).1 h
  exact ⟨coreEffect_enc_eq i s, coreEffect_dec_eq i s, coreEffect_out_queueMove i s, coreEffect_cap_queueMove i s,
    coreEffect_rcv_queueMove i s, out_writers, cap_writers, rcv_writers, countdown_writers, outMode_trace_writers⟩

end Sys2Proof.Machine

/-! SUPPORT. The operation port's encoding (30_encoding.md R81 to R89): which OPs the decoder rejects, which operation a
presentation stands for (`decode_eq_ok_iff`), and the statements O3, O4 and O6 assembled from them. -/

namespace Sys2Proof

/-! ### Undefined operation codes (R82, R83, R88) -/

/-- How many function codes, counted from 0, a unit has in the opcode map (R83); the reserved units have none (R82). -/
def funcCount : Nat → Nat
  | 0 => 4
  | 1 => 4
  | 2 => 4
  | 3 => 5
  | 4 => 4
  | 5 => 1
  | _ => 0

theorem decodeOut_error_iff (f : Nat) (din : Word) : (∃ e, decodeOut f din = .error e) ↔ 4 ≤ f := by
  match f with
  | 0 | 1 | 2 | 3 => simp [decodeOut]
  | n + 4 => simp [decodeOut]

theorem decodeCap_error_iff (f : Nat) (din : Word) : (∃ e, decodeCap f din = .error e) ↔ 4 ≤ f := by
  match f with
  | 0 | 1 | 2 | 3 => simp [decodeCap]
  | n + 4 => simp [decodeCap]

theorem decodeRcv_error_iff (f : Nat) (din : Word) : (∃ e, decodeRcv f din = .error e) ↔ 4 ≤ f := by
  match f with
  | 0 | 1 | 2 | 3 => simp [decodeRcv]
  | n + 4 => simp [decodeRcv]

theorem decodeEnc_error_iff (f : Nat) (din : Word) : (∃ e, decodeEnc f din = .error e) ↔ 5 ≤ f := by
  match f with
  | 0 | 1 | 2 | 3 | 4 => simp [decodeEnc]
  | n + 5 => simp [decodeEnc]

theorem decodeDec_error_iff (f : Nat) (din : Word) : (∃ e, decodeDec f din = .error e) ↔ 4 ≤ f := by
  match f with
  | 0 | 1 | 2 | 3 => simp [decodeDec]
  | n + 4 => simp [decodeDec]

theorem decodeTmr_error_iff (f : Nat) : (∃ e, decodeTmr f = .error e) ↔ 1 ≤ f := by
  match f with
  | 0 => simp [decodeTmr]
  | n + 1 => simp [decodeTmr]

theorem decode_error_iff (op : Byte) (din : Word) :
    (∃ e, decode op din = .error e) ↔ funcCount (unitOf op) ≤ funcOf op := by
  unfold decode
  split
  next h => rw [h]; exact decodeOut_error_iff (funcOf op) din
  next h => rw [h]; exact decodeCap_error_iff (funcOf op) din
  next h => rw [h]; exact decodeRcv_error_iff (funcOf op) din
  next h => rw [h]; exact decodeEnc_error_iff (funcOf op) din
  next h => rw [h]; exact decodeDec_error_iff (funcOf op) din
  next h => rw [h]; exact decodeTmr_error_iff (funcOf op)
  next => simp [funcCount]

/-- The opcode map, one byte at a time: an OP is listed exactly when its unit has its function code. -/
theorem notMem_definedOps_iff (op : Byte) : op ∉ definedOps ↔ funcCount (unitOf op) ≤ funcOf op := by
  revert op
  decide

theorem decode_error_iff_notMem (op : Byte) (din : Word) :
    (∃ e, decode op din = .error e) ↔ op ∉ definedOps :=
  (decode_error_iff op din).trans (notMem_definedOps_iff op).symm

theorem mem_definedOps_of_decode {op : Byte} {din : Word} {i : Instr} (h : decode op din = .ok i) :
    op ∈ definedOps := by
  by_contra hop
  obtain ⟨e, he⟩ := (decode_error_iff_notMem op din).2 hop
  simp [h] at he

theorem unitOf_eq (op : Byte) : unitOf op = op.toNat / 16 := by
  simp [unitOf, Nat.shiftRight_eq_div_pow]
  omega

theorem funcOf_eq (op : Byte) : funcOf op = op.toNat % 16 := by
  simp [funcOf]

/-- The function codes a unit does not have, unit by unit. -/
theorem funcCount_le_iff (u f : Nat) :
    funcCount u ≤ f ↔
      (6 ≤ u ∨ (u ≤ 2 ∧ 4 ≤ f) ∨ (u = 3 ∧ 5 ≤ f) ∨ (u = 4 ∧ 4 ≤ f) ∨ (u = 5 ∧ 1 ≤ f)) := by
  match u with
  | 0 | 1 | 2 | 3 | 4 | 5 => simp [funcCount]
  | n + 6 => simp [funcCount]

/-! ### Which operation a presentation stands for (R85, R89) -/

/-- Reading an operand from DIN through a layout: the operand whose layout DIN shows on the bits that are read. -/
theorem layout_read_eq_iff {α : Type} {read : Word → α} {write : α → Word} {mask : Word}
    (read_write : ∀ a, read (write a) = a) (write_read : ∀ w, write (read w) = w &&& mask) (w : Word) (a : α) :
    read w = a ↔ write a = w &&& mask := by
  constructor
  · rintro rfl
    exact write_read w
  · intro h
    calc read w = read (write (read w)) := (read_write _).symm
      _ = read (write a) := by rw [write_read, h]
      _ = a := read_write a

theorem packetOfWord_eq_iff : ∀ (w : Word) (p : Packet), packetOfWord w = p ↔ wordOfPacket p = w &&& 0xFFFFFFFF#32 :=
  layout_read_eq_iff packetOfWord_wordOfPacket wordOfPacket_packetOfWord

theorem commandOfWord_eq_iff : ∀ (w : Word) (c : Command), commandOfWord w = c ↔ wordOfCommand c = w &&& 0xFFFF#32 :=
  layout_read_eq_iff commandOfWord_wordOfCommand wordOfCommand_commandOfWord

theorem eventOfWord_eq_iff : ∀ (w : Word) (e : PulseEvent), eventOfWord w = e ↔ wordOfEvent e = w &&& 0xFFFF#32 :=
  layout_read_eq_iff eventOfWord_wordOfEvent wordOfEvent_eventOfWord

theorem ticksOfWord_eq_iff : ∀ (w : Word) (t : Ticks), ticksOfWord w = t ↔ wordOfTicks t = w &&& 0xFFFF#32 :=
  layout_read_eq_iff ticksOfWord_wordOfTicks wordOfTicks_ticksOfWord

/-- Decoding at an operation's own OP: the operation, once DIN shows its operand on the bits it reads. -/
theorem decode_opcodeOf {i : Instr} {din : Word} (h : dinOf i = din &&& dinMask i) :
    decode (opcodeOf i) din = .ok i := by
  cases i with
  | outTrywrite p => obtain rfl := (packetOfWord_eq_iff din p).2 h; exact decode_outTrywrite din
  | capTrywrite e => obtain rfl := (eventOfWord_eq_iff din e).2 h; exact decode_capTrywrite din
  | rcvTrywrite c => obtain rfl := (commandOfWord_eq_iff din c).2 h; exact decode_rcvTrywrite din
  | encSubmit c => obtain rfl := (commandOfWord_eq_iff din c).2 h; exact decode_encSubmit din
  | encStep t => obtain rfl := (ticksOfWord_eq_iff din t).2 h; exact decode_encStep din
  | decOnevent e => obtain rfl := (eventOfWord_eq_iff din e).2 h; exact decode_decOnevent din
  | _ => rfl

/-- What a presentation decodes to encodes to its OP and the DIN bits it reads: an OP that decodes is one of the map's 22, and
at each of them the decoded operand's layout is DIN under that operation's mask. -/
theorem encode_of_decode {op : Byte} {din : Word} {i : Instr} (h : decode op din = .ok i) :
    encode i = (op, din &&& dinMask i) := by
  have hop : op ∈ definedOps := mem_definedOps_of_decode h
  fin_cases hop <;> cases h <;>
    simp [encode, opcodeOf, dinOf, dinMask, wordOfPacket_packetOfWord, wordOfCommand_commandOfWord,
      wordOfEvent_eventOfWord, wordOfTicks_ticksOfWord]

/-- A presentation is the operation whose OP it shows and whose operand it shows on the DIN bits that operation reads. -/
theorem decode_eq_ok_iff (op : Byte) (din : Word) (i : Instr) :
    decode op din = .ok i ↔ encode i = (op, din &&& dinMask i) := by
  constructor
  · exact encode_of_decode
  · intro h
    obtain ⟨rfl, hdin⟩ := Prod.mk.inj h
    exact decode_opcodeOf hdin

theorem PulseEvent.length_le_lenMax (e : PulseEvent) : e.length.toNat ≤ Config.lenMax :=
  Nat.le_of_lt_succ e.length.isLt

/-- Settles O3: which operation a presentation is depends on DIN only through the bits that operation reads. -/
theorem unusedDinBitsAreIgnored : Obligations.UnusedDinBitsAreIgnored := by
  refine ⟨fun op din din' i h hagree => ?_, PulseEvent.length_le_lenMax⟩
  rw [decode_eq_ok_iff] at h ⊢
  rw [h, hagree]

/-! ### Refusals (R88) -/

namespace Machine

theorem step_of_decode_error {s : State} {p : Presentation} {rest : List Presentation} {e : DecodeError}
    (hport : s.port = p :: rest) (he : decode p.op p.din = .error e) : step s = .refused (.undefinedOp p.op) := by
  simp only [step, fetch, hport, he]

theorem exec_wrongContext {i : Instr} {s : State} (h : (ctxRuleOf i).allows s.ctx = false) :
    exec i s = .refused (.wrongContext (mnemonicOf i) s.ctx) := by
  rw [exec_eq, inContext_wrong _ _ _ _ h]

/-- Settles O4: the decoder rejects an OP exactly where its unit lacks its function code, which is outside the map; `step` turns
that into a refusal, and the context check of every arm turns a wrong context into one. -/
theorem undefinedOperationsAreRefused : Obligations.UndefinedOperationsAreRefused := by
  refine ⟨fun op din => ⟨decode_error_iff_notMem op din, ?_⟩, fun s p rest hport hop => ?_,
    fun i s => exec_wrongContext⟩
  · rw [decode_error_iff, funcCount_le_iff, unitOf_eq, funcOf_eq]
  · obtain ⟨e, he⟩ := (decode_error_iff_notMem p.op p.din).2 hop
    exact step_of_decode_error hport he

end Machine

/-! ### The PulseEvent word (R84) -/

theorem eventBits_isBurst (e : PulseEvent) : (eventBits e).getLsbD 15 = e.isBurst := by
  simpa [eventOfWord, wordOfEvent] using congrArg PulseEvent.isBurst (eventOfWord_wordOfEvent e)

theorem eventBits_length (e : PulseEvent) : (eventBits e).extractLsb' 0 15 = e.length := by
  rw [← BitVec.extractLsb'_setWidth_of_le (w' := 32) (by decide)]
  exact congrArg PulseEvent.length (eventOfWord_wordOfEvent e)

/-- Settles O6: the word's two fields, its examples, and a measured length captured as its minimum with the sentinel. -/
theorem pulseEventWord : Obligations.PulseEventWord := by
  refine ⟨fun e => ⟨eventBits_isBurst e, eventBits_length e⟩, by decide, by decide, rfl,
    fun b measured => ⟨rfl, ?_⟩⟩
  rw [Machine.capturedEvent_length_toNat]
  split <;> omega

end Sys2Proof

/-! SUPPORT. The queue family (40_queue.md): an operation whose effect is nothing, a write into a full OUT, and a drain of OUT by
a read or by the encoder; and the statements O25 and O27 assembled from them. -/

namespace Sys2Proof.Machine

/-! ### Completed operations -/

/-- An operation its row allows, with no effect on the state: its answer is all that is added. -/
theorem exec_of_coreEffect_eq_self {i : Instr} {s : State} (hrule : (ctxRuleOf i).allows s.ctx = true)
    (heffect : coreEffect i s = s) : exec i s = .next { s with results := s.results ++ [coreAnswer i s] } := by
  rw [exec_next_iff, heffect]
  exact ⟨hrule, rfl⟩

theorem ctxRuleOf_allows_of_poll {i : Instr} {s : State} (hctx : s.ctx = .poll) (hrule : ctxRuleOf i = .pollOnly) :
    (ctxRuleOf i).allows s.ctx = true := by
  rw [hrule, CtxRule.pollOnly_allows]
  exact hctx

/-- ENC.CANACCEPT asks whether OUT holds fewer than 2 packets (R131). -/
theorem exec_encCanaccept_of_poll {s : State} (hctx : s.ctx = .poll) :
    exec .encCanaccept s = .next { s with results := s.results ++ [⟨decide (s.out.length < 2), 0⟩] } := by
  rw [← qHasRoom_out]
  exact exec_of_coreEffect_eq_self (ctxRuleOf_allows_of_poll hctx rfl) rfl

/-! ### The port's context is no operation's to write -/

theorem encTransition_ctx (s : State) : (encTransition s).1.ctx = s.ctx := by
  rcases encTransition_shape s with ⟨-, -, h⟩ | ⟨q, e, n, -, -, ⟨h, -⟩ | ⟨h, -⟩ | ⟨h, -⟩ | ⟨h, -⟩⟩ <;> rw [h] <;> rfl

theorem coreEffect_ctx (i : Instr) (s : State) : (coreEffect i s).ctx = s.ctx := by
  cases i with
  | encStep rt =>
    rcases coreEffect_encStep rt s with h | h <;> rw [h]
    · rfl
    · exact encTransition_ctx (s.withEnc { s.enc with remainingTicks := rt })
  | decOnevent e =>
    rw [coreEffect, decOnEventCore_fields]
  | _ => rfl

/-! ### OUT when it is full, and when it is drained (R123, R125) -/

theorem tryWrite_out_of_full {q : List Packet} (hfull : 2 ≤ q.length) (e : Packet) :
    tryWrite Config.outShape q e = (false, q) := by
  rcases tryWrite_cases Config.outShape q e with ⟨hroom, -⟩ | ⟨-, h⟩
  · rw [qHasRoom_out, decide_eq_true_iff] at hroom
    omega
  · exact h

/-- A POLL operation that writes into OUT drops its packet when OUT is full, and answers 0. -/
theorem exec_outWrite_of_full {i : Instr} {s : State} (e : Packet) (hctx : s.ctx = .poll) (hfull : 2 ≤ s.out.length)
    (hrule : ctxRuleOf i = .pollOnly) (heffect : coreEffect i s = s.withOut (tryWrite Config.outShape s.out e).2)
    (hanswer : coreAnswer i s = ⟨(tryWrite Config.outShape s.out e).1, 0⟩) :
    exec i s = .next { s with results := s.results ++ [⟨false, 0⟩] } := by
  rw [tryWrite_out_of_full hfull] at heffect hanswer
  rw [exec_of_coreEffect_eq_self (ctxRuleOf_allows_of_poll hctx hrule) heffect, hanswer]

/-- In Idle the encoder takes OUT's oldest packet, if there is one (R136). -/
theorem encTransition_out_of_idle {s : State} (hidle : s.enc.status = .idle) : (encTransition s).1.out = s.out.tail := by
  rcases encTransition_shape s with
    ⟨-, hout, h⟩ | ⟨q, e, n, -, -, ⟨h, -, hout⟩ | ⟨-, hbusy, -⟩ | ⟨-, hbusy, -⟩ | ⟨-, hbusy, -⟩⟩
  · rw [h, hout, List.tail_nil]
  · rw [h, hout]
    rfl
  all_goals exact absurd hidle hbusy

theorem coreEffect_encStep_out_of_idle (rt : Ticks) {s : State} (hidle : s.enc.status = .idle) :
    (coreEffect (.encStep rt) s).out = s.out.tail := by
  rcases encStepCore_cases rt s with ⟨hbusy, -⟩ | ⟨-, h⟩
  · exact absurd hidle hbusy
  · rw [coreEffect, h]
    exact encTransition_out_of_idle (s := s.withEnc { s.enc with remainingTicks := rt }) hidle

/-- Once a POLL operation leaves OUT with fewer than 2 packets, ENC.CANACCEPT answers 1. -/
theorem encCanaccept_true_after {i : Instr} {s : State} (hctx : s.ctx = .poll) (hrule : ctxRuleOf i = .pollOnly)
    (hroom : (coreEffect i s).out.length < 2) :
    ∃ t u d, exec i s = .next t ∧ exec .encCanaccept t = .next u ∧ u.results = t.results ++ [⟨true, d⟩] := by
  have hexec := (exec_next_iff i s _).2 ⟨ctxRuleOf_allows_of_poll hctx hrule, rfl⟩
  have hask := exec_encCanaccept_of_poll (s := (coreEffect i s).respond (coreAnswer i s).ok (coreAnswer i s).dout)
    ((coreEffect_ctx i s).trans hctx)
  refine ⟨_, _, 0, hexec, hask, ?_⟩
  simp [hroom]

/-! ### The statements -/

/-- Settles O25: a FREESPACE has no effect, its row allows both contexts, and its answer is the free bytes by definition. -/
theorem queueFreeSpace : Obligations.QueueFreeSpace := by
  refine ⟨fun din => ⟨decode_outFreespace din, decode_capFreespace din, decode_rcvFreespace din⟩, fun s => ?_⟩
  have hboth : CtxRule.both.allows s.ctx = true := CtxRule.both_allows s.ctx
  refine ⟨exec_of_coreEffect_eq_self hboth rfl, fun hbound => ?_, exec_of_coreEffect_eq_self hboth rfl,
    Nat.mul_mod_left _ 2, by omega, exec_of_coreEffect_eq_self hboth rfl, Nat.mul_mod_left _ 2, by omega⟩
  interval_cases s.out.length <;> decide

/-- Settles O27: both writers go through a TryWrite that a full OUT refuses, and a read or an ENC.STEP from Idle leaves OUT's
tail, which has room. -/
theorem thirdPacketIsDropped : Obligations.ThirdPacketIsDropped := by
  intro s p q hctx hout
  have hfull : 2 ≤ s.out.length := by simp [hout]
  refine ⟨fun x => ⟨0, exec_outWrite_of_full x hctx hfull rfl rfl rfl⟩,
    fun c => ⟨0, exec_outWrite_of_full (packetOfCommand c) hctx hfull rfl rfl rfl⟩, ⟨0, ?_⟩, ?_, fun hidle rt => ?_⟩
  · rw [exec_encCanaccept_of_poll hctx]
    simp [hout]
  · exact encCanaccept_true_after hctx rfl (by simp [coreEffect, hout])
  · exact encCanaccept_true_after hctx rfl (by simp [coreEffect_encStep_out_of_idle rt hidle, hout])

end Sys2Proof.Machine

/-! SUPPORT. The encoder family (41_encoder.md R135 to R146): what ENC.STEP answers when its transition acts, one equation
per transition out of a status, and the statements O30 to O34 and O36 to O39 assembled from them. -/

namespace Sys2Proof.Machine

/-! ### ENC.STEP over a transition (R135, R137) -/

theorem exec_encStep_of_poll (rt : Ticks) {s : State} (hctx : s.ctx = .poll) :
    exec (.encStep rt) s = .next ((encStepCore rt s).1.answerWord (encStepCore rt s).2.code) :=
  (exec_next_iff _ _ _).2 ⟨ctxRuleOf_allows_of_poll hctx rfl, rfl⟩

/-- The state with ENC.STEP's operand recorded, as every STEP first does (R26, R135). -/
def State.encRecord (s : State) (rt : Ticks) : State := s.withEnc { s.enc with remainingTicks := rt }

/-- A STEP from Idle, or with operand 0, makes the transition out of the status, with its operand recorded, and answers
the transition's result. -/
theorem exec_encStep_of_transition {rt : Ticks} {s t : State} {r : StepResult} (hctx : s.ctx = .poll)
    (hacts : s.enc.status = .idle ∨ rt = 0)
    (ht : encTransition (s.encRecord rt) = (t, r)) :
    exec (.encStep rt) s = .next { t with results := t.results ++ [⟨true, r.code⟩] } := by
  rcases encStepCore_cases rt s with ⟨hbusy, hrt, -⟩ | ⟨-, h⟩
  · exact absurd hacts (not_or.2 ⟨hbusy, hrt⟩)
  · rw [exec_encStep_of_poll rt hctx, h, ← State.encRecord, ht, answerWord_eq]

/-! ### The transition out of each status (R136, R138 to R146) -/

section
variable (s : State)

theorem encTransition_idle_nil (hst : s.enc.status = .idle) (hout : s.out = []) :
    encTransition s = (s, .notSending) := by
  simp only [encTransition, hst, encStart, hout]

theorem encTransition_idle_cons {p : Packet} {rest : List Packet} (hst : s.enc.status = .idle)
    (hout : s.out = p :: rest) :
    encTransition s = ((startBurst ((s.withOut rest).withEnc
      { s.enc with packetBuffer := p, currentByte := 0, pendingBitCount := 8, messageKind := .command })
      342).encEnter .leadBurst, .started) := by
  simp only [encTransition, hst, encStart, hout, State.withOut_enc]
  rfl

theorem encTransition_leadBurst (hst : s.enc.status = .leadBurst) :
    encTransition s =
      ((startPause s (if s.enc.messageKind = .command then 171 else 83)).encEnter .leadPause, .inProgress) := by
  simp only [encTransition, hst, encLeadPause]
  split <;> rfl

theorem encTransition_leadPause (hst : s.enc.status = .leadPause) :
    encTransition s =
      ((startBurst s 22).encEnter (if s.enc.messageKind = .command then .dataBitBurst else .trailingBurst),
        .inProgress) := by
  simp only [encTransition, hst, encAfterLeadPause]
  split <;> rfl

/-- The data bit chooses the pause, and of the encoder's state the position advances with the status. -/
theorem encTransition_dataBitBurst (hst : s.enc.status = .dataBitBurst) :
    encTransition s = ((startPause (s.withEnc { s.enc with
        currentByte := (encAdvanceBit s.enc).currentByte
        pendingBitCount := (encAdvanceBit s.enc).pendingBitCount })
      (if encDataBit s.enc then 64 else 21)).encEnter .dataBitPause, .inProgress) := by
  rw [← encAdvanceBit_fields, ← bitPause_eq]
  simp only [encTransition, hst]
  rfl

theorem encTransition_dataBitPause (hst : s.enc.status = .dataBitPause) :
    encTransition s =
      ((startBurst s 22).encEnter (if s.enc.currentByte.val < 4 then .dataBitBurst else .trailingBurst),
        .inProgress) := by
  simp only [encTransition, hst, encAfterBitPause]
  split <;> rfl

theorem encTransition_trailingBurst_command (hst : s.enc.status = .trailingBurst)
    (hkind : s.enc.messageKind = .command) :
    encTransition s =
      ((startPause (s.withEnc { s.enc with messageKind := .keypress }) 1510).encEnter .intervalPause, .inProgress) := by
  simp only [encTransition, hst, encAfterTrailingBurst, hkind]
  rfl

theorem encTransition_trailingBurst_repeat (hst : s.enc.status = .trailingBurst)
    (hkind : s.enc.messageKind ≠ .command) (hrepeat : s.enc.repeatCount ≠ 0) :
    encTransition s = ((startPause (s.withEnc { s.enc with repeatCount := s.enc.repeatCount - 1 })
      Config.autorepeatPause).encEnter .intervalPause, .inProgress) := by
  simp only [encTransition, hst, encAfterTrailingBurst, if_neg hkind, if_pos hrepeat]
  rfl

theorem encTransition_trailingBurst_last (hst : s.enc.status = .trailingBurst)
    (hkind : s.enc.messageKind ≠ .command) (hrepeat : s.enc.repeatCount = 0) :
    encTransition s = ((stopOutput s).withEnc { s.enc with status := .idle, messageKind := .none }, .ended) := by
  simp only [encTransition, hst, encAfterTrailingBurst, if_neg hkind, if_neg (not_not.2 hrepeat)]
  rfl

theorem encTransition_intervalPause (hst : s.enc.status = .intervalPause) :
    encTransition s = ((startBurst s 342).encEnter .leadBurst, .inProgress) := by
  simp only [encTransition, hst]
  rfl

end

/-! ### The statements -/

/-- Settles O34: the position is one of the packet's, so the bit is the packet's and the advance has no free value. -/
theorem dataBitBurstToPause : Obligations.DataBitBurstToPause := by
  intro s n hctx hst hbyte hbits hn
  have hpause : n = if encDataBit (s.encRecord 0).enc then 64 else 21 := by
    rw [encDataBit_in_packet (s.encRecord 0).enc hbyte hbits]
    exact hn
  refine ⟨(encAdvanceBit (s.encRecord 0).enc).currentByte, (encAdvanceBit (s.encRecord 0).enc).pendingBitCount,
    encAdvanceBit_currentByte (s.encRecord 0).enc hbyte hbits,
    encAdvanceBit_pendingBitCount (s.encRecord 0).enc hbyte hbits, ?_⟩
  rw [hpause]
  exact exec_encStep_of_transition hctx (.inr rfl) (encTransition_dataBitBurst (s.encRecord 0) hst)

/-- Settles O30: from Idle the operand is recorded and the transition asks OUT alone. -/
theorem stepInIdle : Obligations.StepInIdle :=
  ⟨fun rt s _ _ hctx hst hout =>
      exec_encStep_of_transition hctx (.inl hst) (encTransition_idle_cons (s.encRecord rt) hst hout),
    fun rt s hctx hst hout =>
      exec_encStep_of_transition hctx (.inl hst) (encTransition_idle_nil (s.encRecord rt) hst hout)⟩

/-- Settles O31: of the three ways ENC.STEP acts, this is the one without a transition. -/
theorem stepWhileAPulseRuns : Obligations.StepWhileAPulseRuns := by
  intro rt s hctx hbusy hrt
  rcases encStepCore_cases rt s with ⟨-, -, h⟩ | ⟨hacts, -⟩
  · rw [exec_encStep_of_poll rt hctx, h]
    rfl
  · exact absurd hacts (not_or.2 ⟨hbusy, hrt⟩)

/-- Settles O32: the message kind chooses the pause. -/
theorem leadBurstToLeadPause : Obligations.LeadBurstToLeadPause := by
  intro s n hctx hst hn
  have hpause : n = if s.enc.messageKind = .command then 171 else 83 := by
    rcases hn with ⟨hkind, rfl⟩ | ⟨hkind, rfl⟩ <;> simp [hkind]
  rw [hpause]
  exact exec_encStep_of_transition hctx (.inr rfl) (encTransition_leadBurst (s.encRecord 0) hst)

/-- Settles O33: the message kind chooses the status. -/
theorem leadPauseToBurst : Obligations.LeadPauseToBurst := by
  intro s next hctx hst hnext
  have hstatus : next = if s.enc.messageKind = .command then .dataBitBurst else .trailingBurst := by
    rcases hnext with ⟨hkind, rfl⟩ | ⟨hkind, rfl⟩ <;> simp [hkind]
  rw [hstatus]
  exact exec_encStep_of_transition hctx (.inr rfl) (encTransition_leadPause (s.encRecord 0) hst)

/-- Settles O36: whether bytes are left to send chooses the status. -/
theorem dataBitPauseToBurst : Obligations.DataBitPauseToBurst := by
  intro s next hctx hst hnext
  have hstatus : next = if s.enc.currentByte.val < 4 then .dataBitBurst else .trailingBurst := by
    rcases hnext with ⟨hbyte, rfl⟩ | ⟨hbyte, rfl⟩ <;> simp [hbyte]
  rw [hstatus]
  exact exec_encStep_of_transition hctx (.inr rfl) (encTransition_dataBitPause (s.encRecord 0) hst)

/-- Settles O37: the autorepeat pause is the open parameter itself, of which nothing is used. -/
theorem trailingBurstToInterval : Obligations.TrailingBurstToInterval := by
  refine ⟨fun s hctx hst hkind => ?_, fun s hctx hst hkind hrepeat => ?_⟩
  · exact exec_encStep_of_transition hctx (.inr rfl)
      (encTransition_trailingBurst_command (s.encRecord 0) hst hkind)
  · have hnotCommand : s.enc.messageKind ≠ .command := by simp [hkind]
    have hleft : s.enc.repeatCount ≠ 0 := fun h => by simp [h] at hrepeat
    exact exec_encStep_of_transition hctx (.inr rfl)
      (encTransition_trailingBurst_repeat (s.encRecord 0) hst hnotCommand hleft)

/-- Settles O38: with no repeat left after a keypress message, the transition stops the output. -/
theorem trailingBurstEnds : Obligations.TrailingBurstEnds := by
  intro s hctx hst hkind hrepeat
  have hnotCommand : s.enc.messageKind ≠ .command := by simp [hkind]
  exact exec_encStep_of_transition hctx (.inr rfl)
    (encTransition_trailingBurst_last (s.encRecord 0) hst hnotCommand hrepeat)

/-- Settles O39: the transition does not ask the message kind. -/
theorem intervalPauseToLeadBurst : Obligations.IntervalPauseToLeadBurst :=
  fun s hctx hst _ => exec_encStep_of_transition hctx (.inr rfl) (encTransition_intervalPause (s.encRecord 0) hst)

end Sys2Proof.Machine

/-! SUPPORT. The decoder family (42_decoder.md R171 to R195): the classification by its numeric ranges, what an event does in
each message kind, a run of events as one state, and the statements O43, O45 to O47, O49, O50 and O53 assembled from them. -/

namespace Sys2Proof.Machine

/-! ### The classification by its total (R173, R174) -/

/-- The windows R172 gives, in the order of R173; only the last two overlap, and the earlier one wins. -/
theorem classify_eq (t : Nat) :
    classify t =
      if 39 ≤ t ∧ t ≤ 47 then .bitLow
      else if 77 ≤ t ∧ t ≤ 95 then .bitHigh
      else if 382 ≤ t ∧ t ≤ 468 then .keypressStart
      else if 469 ≤ t ∧ t ≤ 564 then .commandStart
      else .invalidPulse := by
  have hlow : inWin t Config.timing.bitLow.toNat = decide (39 ≤ t ∧ t ≤ 47) := rfl
  have hhigh : inWin t Config.timing.bitHigh.toNat = decide (77 ≤ t ∧ t ≤ 95) := rfl
  have hkey : inWin t Config.timing.keyMsg.toNat = decide (382 ≤ t ∧ t ≤ 468) := rfl
  have hcmd : inWin t Config.timing.cmdMsg.toNat = decide (462 ≤ t ∧ t ≤ 564) := rfl
  simp only [classify, hlow, hhigh, hkey, hcmd, decide_eq_true_eq]
  by_cases hoverlap : 382 ≤ t ∧ t ≤ 468
  · simp only [if_pos hoverlap]
  · have hrest : (462 ≤ t ∧ t ≤ 564) ↔ (469 ≤ t ∧ t ≤ 564) := by omega
    simp only [hrest]

theorem classify_eq_bitLow_iff (t : Nat) : classify t = .bitLow ↔ 39 ≤ t ∧ t ≤ 47 := by
  rw [classify_eq]
  split_ifs <;> simp <;> omega

theorem classify_eq_bitHigh_iff (t : Nat) : classify t = .bitHigh ↔ 77 ≤ t ∧ t ≤ 95 := by
  rw [classify_eq]
  split_ifs <;> simp <;> omega

theorem classify_eq_keypressStart_iff (t : Nat) : classify t = .keypressStart ↔ 382 ≤ t ∧ t ≤ 468 := by
  rw [classify_eq]
  split_ifs <;> simp <;> omega

theorem classify_eq_commandStart_iff (t : Nat) : classify t = .commandStart ↔ 469 ≤ t ∧ t ≤ 564 := by
  rw [classify_eq]
  split_ifs <;> simp <;> omega

theorem classify_eq_invalidPulse_iff (t : Nat) :
    classify t = .invalidPulse ↔ t < 39 ∨ (48 ≤ t ∧ t ≤ 76) ∨ (96 ≤ t ∧ t ≤ 381) ∨ 565 ≤ t := by
  rw [classify_eq]
  split_ifs <;> simp <;> omega

/-! ### A bit shifted in (R187, R188) -/

theorem byteIndexNext_eq (n : Byte) : byteIndexNext n = BitVec.ofNat 8 (min (n.toNat + 1) 255) := by
  apply BitVec.eq_of_toNat_eq
  rw [byteIndexNext_toNat, BitVec.toNat_ofNat]
  omega

theorem shiftBit_of_lt (v : Bool) {d : ReceiverState} (h : d.pendingBitCount.val + 1 < 8) :
    shiftBit v d =
      { d with bitAccumulator := shiftIn d.bitAccumulator v, pendingBitCount := ⟨d.pendingBitCount.val + 1, h⟩ } :=
  dif_pos h

/-- The 8th bit completes the byte. -/
theorem shiftBit_of_eq_seven (v : Bool) {d : ReceiverState} (h : d.pendingBitCount.val = 7) :
    shiftBit v d =
      { d with
        bitAccumulator := 0
        pendingBitCount := 0
        byteIndex := BitVec.ofNat 8 (min (d.byteIndex.toNat + 1) 255)
        decodedCommand :=
          { address := if d.byteIndex = 0 then shiftIn d.bitAccumulator v else d.decodedCommand.address
            code := if d.byteIndex = 2 then shiftIn d.bitAccumulator v else d.decodedCommand.code } } := by
  rw [← byteIndexNext_eq, ← storeByte_eq]
  exact dif_neg (by omega)

/-! ### One event, by the message kind (R182) -/

theorem exec_decOnevent_of_poll (e : PulseEvent) {s : State} (hctx : s.ctx = .poll) :
    exec (.decOnevent e) s = .next ((decOnEventCore e s).answer true) :=
  (exec_next_iff _ _ _).2 ⟨ctxRuleOf_allows_of_poll hctx rfl, rfl⟩

theorem decOnEventCore_of_none (e : PulseEvent) {s : State} (hkind : s.dec.messageKind = .none) :
    decOnEventCore e s = s.withDec (eventInIdle e s.dec) := by
  simp only [decOnEventCore, hkind]

theorem decOnEventCore_of_command (e : PulseEvent) {s : State} (hkind : s.dec.messageKind = .command) :
    decOnEventCore e s = s.withDec (eventInCommand e s.dec) := by
  simp only [decOnEventCore, hkind]

theorem eventInIdle_eq (e : PulseEvent) (d : ReceiverState) :
    eventInIdle e d =
      if e.isBurst = false ∧ 1359 ≤ e.length.toNat then
        { d with messageKind := .command, bitAccumulator := 0, pendingBitCount := 0, byteIndex := 0 }
      else d := by
  simp only [eventInIdle, syncMin_eq, resetCounters]

theorem eventInCommand_of_burst {e : PulseEvent} (d : ReceiverState) (hburst : e.isBurst = true) :
    eventInCommand e d = burstInCommand e.length d := if_pos hburst

theorem eventInCommand_of_pause {e : PulseEvent} (d : ReceiverState) (hpause : e.isBurst = false) :
    eventInCommand e d = pauseInCommand e.length d := by simp [eventInCommand, hpause]

theorem burstInCommand_eq (l : PulseLength) (d : ReceiverState) :
    burstInCommand l d =
      if d.byteIndex.toNat < 4 then { d with lastBurstLength := l } else { d with messageKind := .none } := by
  rw [burstInCommand]
  split_ifs
  · omega
  · rfl
  · rfl
  · omega

section
variable {l : PulseLength} {d : ReceiverState}

/-- A total in one of the two bit windows shifts that window's bit in. -/
theorem pauseInCommand_of_bit {v : Bool}
    (h : 39 ≤ d.lastBurstLength.toNat + l.toNat ∧ d.lastBurstLength.toNat + l.toNat ≤ 47 ∧ v = false ∨
      77 ≤ d.lastBurstLength.toNat + l.toNat ∧ d.lastBurstLength.toNat + l.toNat ≤ 95 ∧ v = true) :
    pauseInCommand l d = shiftBit v d := by
  rcases h with ⟨hmin, hmax, rfl⟩ | ⟨hmin, hmax, rfl⟩
  · simp only [pauseInCommand, totalDuration_toNat, (classify_eq_bitLow_iff _).2 ⟨hmin, hmax⟩]
  · simp only [pauseInCommand, totalDuration_toNat, (classify_eq_bitHigh_iff _).2 ⟨hmin, hmax⟩]

theorem pauseInCommand_of_keypressStart
    (h : classify (d.lastBurstLength.toNat + l.toNat) = .keypressStart) :
    pauseInCommand l d = { d with messageKind := .keypress } := by
  simp only [pauseInCommand, totalDuration_toNat, h]

theorem pauseInCommand_of_commandStart
    (h : classify (d.lastBurstLength.toNat + l.toNat) = .commandStart) : pauseInCommand l d = d := by
  simp only [pauseInCommand, totalDuration_toNat, h]

theorem pauseInCommand_of_invalidPulse
    (h : classify (d.lastBurstLength.toNat + l.toNat) = .invalidPulse) : pauseInCommand l d = resynchronise d := by
  simp only [pauseInCommand, totalDuration_toNat, h]

end

/-- A POLL pause in Command, by what `pauseInCommand` makes of the decoder. -/
theorem exec_decOnevent_pauseInCommand {e : PulseEvent} {s : State} {d : ReceiverState} (hctx : s.ctx = .poll)
    (hkind : s.dec.messageKind = .command) (hpause : e.isBurst = false) (h : pauseInCommand e.length s.dec = d) :
    exec (.decOnevent e) s = .next { s with dec := d, results := s.results ++ [⟨true, 0⟩] } := by
  rw [exec_decOnevent_of_poll e hctx, decOnEventCore_of_command e hkind, eventInCommand_of_pause s.dec hpause, h]
  rfl

theorem tryWrite_rcv (q : List Command) (c : Command) :
    (tryWrite Config.rcvShape q c).2 = if q.length < 8 then q ++ [c] else q := by
  simp only [tryWrite, qHasRoom_rcv, qPush, decide_eq_true_eq]
  split <;> rfl

theorem decOnEventCore_of_keypress_burst {e : PulseEvent} {s : State} (hkind : s.dec.messageKind = .keypress)
    (hburst : e.isBurst = true) :
    decOnEventCore e s =
      (s.withRcv (if s.rcv.length < 8 then s.rcv ++ [s.dec.decodedCommand] else s.rcv)).withDec
        { s.dec with messageKind := .none } := by
  simp only [decOnEventCore, hkind, eventInKeypress, hburst, if_true, deliver, tryWrite_rcv]

theorem decOnEventCore_of_keypress_pause {e : PulseEvent} {s : State} (hkind : s.dec.messageKind = .keypress)
    (hpause : e.isBurst = false) : decOnEventCore e s = s := by
  simp [decOnEventCore, hkind, eventInKeypress, hpause]

/-! ### The statements about one event -/

/-- Settles O43: the tolerances by computation, the windows by `classify_eq`. -/
theorem toleranceWindows : Obligations.ToleranceWindows :=
  ⟨by decide, fun _ _ => decide_eq_true_iff, fun _ => rfl, classify_eq⟩

/-- Settles O45: `eventInIdle` with SYNC_MIN computed. -/
theorem eventsInIdle : Obligations.EventsInIdle := by
  intro e s hctx hkind
  refine ⟨0, ?_⟩
  rw [exec_decOnevent_of_poll e hctx, decOnEventCore_of_none e hkind, eventInIdle_eq]
  split <;> rfl

/-- Settles O46: whether four bytes are complete decides what a burst does. -/
theorem burstsInCommand : Obligations.BurstsInCommand := by
  intro e s hctx hkind hburst
  refine ⟨0, ?_⟩
  rw [exec_decOnevent_of_poll e hctx, decOnEventCore_of_command e hkind, eventInCommand_of_burst s.dec hburst,
    burstInCommand_eq]
  split <;> rfl

/-- Settles O47: the total's window gives the bit, and the bit count says whether it is the 8th. -/
theorem bitsInCommand : Obligations.BitsInCommand := by
  rintro e s total v acc hctx hkind hpause rfl hbit rfl
  have hshift : pauseInCommand e.length s.dec = shiftBit v s.dec := pauseInCommand_of_bit hbit
  refine ⟨0, fun hlt => ⟨⟨s.dec.pendingBitCount.val + 1, by omega⟩, rfl, ?_⟩, fun hseven => ?_⟩
  · exact exec_decOnevent_pauseInCommand hctx hkind hpause (hshift.trans (shiftBit_of_lt v _))
  · exact exec_decOnevent_pauseInCommand hctx hkind hpause (hshift.trans (shiftBit_of_eq_seven v hseven))

/-- Settles O49: one clause per class that is no bit; an invalid total asks whether a byte is complete. -/
theorem otherPausesInCommand : Obligations.OtherPausesInCommand := by
  rintro e s total hctx hkind hpause rfl
  refine ⟨fun hmin hmax => ⟨0, ?_⟩, fun hmin hmax => ⟨0, ?_⟩, fun hinvalid => ⟨0, ?_⟩⟩
  · exact exec_decOnevent_pauseInCommand hctx hkind hpause
      (pauseInCommand_of_keypressStart ((classify_eq_keypressStart_iff _).2 ⟨hmin, hmax⟩))
  · exact exec_decOnevent_pauseInCommand hctx hkind hpause
      (pauseInCommand_of_commandStart ((classify_eq_commandStart_iff _).2 ⟨hmin, hmax⟩))
  · rw [exec_decOnevent_pauseInCommand hctx hkind hpause
      (pauseInCommand_of_invalidPulse ((classify_eq_invalidPulse_iff _).2 hinvalid)), resynchronise]
    split <;> rfl

/-- Settles O50: only a burst acts, and the TryWrite into RCV drops the command when RCV is full. -/
theorem eventsInKeypress : Obligations.EventsInKeypress := by
  refine fun e s hctx hkind => ⟨fun hburst => ⟨0, ?_⟩, fun hpause => ⟨0, ?_⟩⟩
  · rw [exec_decOnevent_of_poll e hctx, decOnEventCore_of_keypress_burst hkind hburst]
    rfl
  · rw [exec_decOnevent_of_poll e hctx, decOnEventCore_of_keypress_pause hkind hpause]
    rfl

/-! ### A run of events -/

/-- The state after a run of DEC.ONEVENT, but for the answers. -/
def decRun (s : State) (es : List PulseEvent) : State := es.foldl (fun t e => decOnEventCore e t) s

@[simp] theorem decRun_nil (s : State) : decRun s [] = s := rfl

@[simp] theorem decRun_cons (s : State) (e : PulseEvent) (es : List PulseEvent) :
    decRun s (e :: es) = decRun (decOnEventCore e s) es := rfl

theorem decRun_append (s : State) (es fs : List PulseEvent) : decRun s (es ++ fs) = decRun (decRun s es) fs :=
  List.foldl_append

/-- The decoder does not read the answers. -/
theorem decOnEventCore_results (e : PulseEvent) (s : State) (rs : List Result) :
    decOnEventCore e { s with results := rs } = { decOnEventCore e s with results := rs } := by
  cases hkind : s.dec.messageKind with
  | none => simp only [decOnEventCore, hkind]; rfl
  | command => simp only [decOnEventCore, hkind]; rfl
  | keypress =>
    simp only [decOnEventCore, hkind, eventInKeypress]
    split <;> rfl

theorem decRun_results (es : List PulseEvent) (s : State) (rs : List Result) :
    decRun { s with results := rs } es = { decRun s es with results := rs } := by
  induction es generalizing s with
  | nil => rfl
  | cons e es ih => rw [decRun_cons, decRun_cons, decOnEventCore_results, ih]

theorem execAll_cons_of_next {i : Instr} {s t : State} (h : exec i s = .next t) (rest : List Instr) :
    execAll (i :: rest) s = execAll rest t := by
  rw [execAll, h]

/-- From POLL every event of a run is answered, and the run ends in `decRun`. -/
theorem execAll_decOnevent (es : List PulseEvent) {s : State} (hctx : s.ctx = .poll) :
    ∃ rs, execAll (es.map Instr.decOnevent) s = .next { decRun s es with results := rs } := by
  induction es generalizing s with
  | nil => exact ⟨s.results, rfl⟩
  | cons e es ih =>
    have hctx' : ((decOnEventCore e s).answer true).ctx = .poll := (coreEffect_ctx (.decOnevent e) s).trans hctx
    obtain ⟨rs, h⟩ := ih hctx'
    refine ⟨rs, ?_⟩
    rw [List.map_cons, execAll_cons_of_next (exec_decOnevent_of_poll e hctx), h, answer_eq, decRun_results,
      decRun_cons]

/-! ### The events of one byte (R63, R187, R188) -/

/-- A bit as it is received without jitter: its burst and its pause. -/
def bitEvents (v : Bool) : List PulseEvent := [burst 22, pause (if v then 64 else 21)]

/-- The first `n` bits of a byte, LSB first. -/
def lowBitsEvents (b : Byte) (n : Nat) : List PulseEvent := (List.range n).flatMap fun m => bitEvents (b.getLsbD m)

theorem lowBitsEvents_succ (b : Byte) (n : Nat) :
    lowBitsEvents b (n + 1) = lowBitsEvents b n ++ bitEvents (b.getLsbD n) := by
  simp [lowBitsEvents, List.range_succ]

/-- The accumulator's top `n` bits are the first `n` bits of `b`. -/
def HoldsLowBits (b : Byte) (n : Nat) (acc : Byte) : Prop := ∀ i < n, acc.getLsbD (8 - n + i) = b.getLsbD i

theorem HoldsLowBits.zero (b acc : Byte) : HoldsLowBits b 0 acc := fun _ h => absurd h (Nat.not_lt_zero _)

theorem HoldsLowBits.eq {b acc : Byte} (h : HoldsLowBits b 8 acc) : acc = b :=
  BitVec.eq_of_getLsbD_eq fun i hi => by simpa using h i hi

theorem shiftIn_getLsbD (acc : Byte) (v : Bool) (i : Nat) (hi : i < 8) :
    (shiftIn acc v).getLsbD i = if i = 7 then v else acc.getLsbD (i + 1) := by
  revert acc v
  interval_cases i <;> decide

/-- Shifting in bit `n` of the byte extends what the accumulator holds by it. -/
theorem HoldsLowBits.shiftIn {b acc : Byte} {n : Nat} (h : HoldsLowBits b n acc) (hn : n < 8) :
    HoldsLowBits b (n + 1) (shiftIn acc (b.getLsbD n)) := by
  intro i hi
  rw [shiftIn_getLsbD _ _ _ (by omega)]
  by_cases hlast : i = n
  · rw [if_pos (by omega), hlast]
  · rw [if_neg (by omega), ← h i (by omega)]
    congr 1
    omega

section
variable (s : State) {d : ReceiverState}

/-- In Command with bytes still to come, a burst and its pause act as the pause does with that burst cached. -/
theorem decRun_burst_pause (l l' : PulseLength) (hkind : d.messageKind = .command) (hbyte : d.byteIndex.toNat < 4) :
    decRun (s.withDec d) [burst l, pause l'] = s.withDec (pauseInCommand l' { d with lastBurstLength := l }) := by
  have hburst : decOnEventCore (burst l) (s.withDec d) = s.withDec { d with lastBurstLength := l } := by
    rw [decOnEventCore_of_command _ hkind, eventInCommand_of_burst _ rfl, burstInCommand_eq]
    exact congrArg s.withDec (if_pos hbyte)
  rw [decRun_cons, hburst, decRun_cons, decRun_nil, decOnEventCore_of_command _ hkind, eventInCommand_of_pause _ rfl]
  rfl

theorem decRun_bitEvents (v : Bool) (hkind : d.messageKind = .command) (hbyte : d.byteIndex.toNat < 4) :
    decRun (s.withDec d) (bitEvents v) = s.withDec (shiftBit v { d with lastBurstLength := 22 }) := by
  rw [bitEvents, decRun_burst_pause s _ _ hkind hbyte, pauseInCommand_of_bit (v := v) (by cases v <;> simp)]

/-- Before the 8th bit only the cached burst, the accumulator and the bit count have changed. -/
theorem decRun_lowBitsEvents (b : Byte) {n : Nat} (hn : n < 8) (hkind : d.messageKind = .command)
    (hbits : d.pendingBitCount = 0) (hbyte : d.byteIndex.toNat < 4) :
    ∃ last acc, HoldsLowBits b n acc ∧ decRun (s.withDec d) (lowBitsEvents b n) =
      s.withDec { d with lastBurstLength := last, bitAccumulator := acc, pendingBitCount := ⟨n, hn⟩ } := by
  induction n with
  | zero =>
    refine ⟨d.lastBurstLength, d.bitAccumulator, .zero b _, ?_⟩
    have hsame : (⟨0, hn⟩ : Fin 8) = d.pendingBitCount := hbits.symm
    rw [hsame]
    rfl
  | succ n ih =>
    obtain ⟨last, acc, hacc, hrun⟩ := ih (by omega)
    refine ⟨22, shiftIn acc (b.getLsbD n), hacc.shiftIn (by omega), ?_⟩
    rw [lowBitsEvents_succ, decRun_append, hrun, decRun_bitEvents, shiftBit_of_lt _ hn]
    exacts [hkind, hbyte]

/-- Eight bits assemble the byte they were taken from, from any accumulator. -/
theorem decRun_byteEvents (b : Byte) (hkind : d.messageKind = .command) (hbits : d.pendingBitCount = 0)
    (hbyte : d.byteIndex.toNat < 4) :
    decRun (s.withDec d) (lowBitsEvents b 8) = s.withDec { d with
      lastBurstLength := 22
      bitAccumulator := 0
      byteIndex := d.byteIndex + 1
      decodedCommand :=
        { address := if d.byteIndex = 0 then b else d.decodedCommand.address
          code := if d.byteIndex = 2 then b else d.decodedCommand.code } } := by
  obtain ⟨last, acc, hacc, hrun⟩ := decRun_lowBitsEvents s b (by decide : 7 < 8) hkind hbits hbyte
  have hb : shiftIn acc (b.getLsbD 7) = b := (hacc.shiftIn (by decide)).eq
  have hnext : BitVec.ofNat 8 (min (d.byteIndex.toNat + 1) 255) = d.byteIndex + 1 := by bv_omega
  rw [lowBitsEvents_succ, decRun_append, hrun, decRun_bitEvents, shiftBit_of_eq_seven _ rfl]
  · simp only [hb, hnext, hbits]
  · exact hkind
  · exact hbyte

end

/-! ### The events of the two messages (R148, R195, R199) -/

theorem traceEvents_append (xs ys : List TraceEntry) : traceEvents (xs ++ ys) = traceEvents xs ++ traceEvents ys :=
  List.filterMap_append

theorem traceEvents_flatMap {α : Type} (xs : List α) (f : α → List TraceEntry) :
    traceEvents (xs.flatMap f) = xs.flatMap fun x => traceEvents (f x) :=
  List.filterMap_flatMap

theorem traceEvents_dataBitPulses (p : Packet) (k : Nat) :
    traceEvents (dataBitPulses p k) = bitEvents (wireBit p k) := by
  cases h : wireBit p k <;> simp only [dataBitPulses, h] <;> rfl

/-- The 32 wire bits are the packet's four bytes in order, each LSB first (R63). -/
theorem traceEvents_dataPulses (p : Packet) :
    traceEvents ((List.range 32).flatMap (dataBitPulses p)) =
      lowBitsEvents p.b0 8 ++ lowBitsEvents p.b1 8 ++ lowBitsEvents p.b2 8 ++ lowBitsEvents p.b3 8 := by
  simp only [traceEvents_flatMap, traceEvents_dataBitPulses]
  rfl

theorem traceEvents_commandPulses (p : Packet) :
    traceEvents (commandPulses p) =
      [burst 342, pause 171] ++
        (lowBitsEvents p.b0 8 ++ lowBitsEvents p.b1 8 ++ lowBitsEvents p.b2 8 ++ lowBitsEvents p.b3 8) ++
        [burst 22] := by
  rw [commandPulses, traceEvents_append, traceEvents_append, traceEvents_dataPulses]
  rfl

theorem traceEvents_packetTrace_zero (p : Packet) :
    traceEvents (packetTrace p 0) = traceEvents (commandPulses p) ++ pause 1510 :: traceEvents keypressPulses := by
  simp only [packetTrace, packetPulses, List.replicate_zero, List.flatten_nil, List.append_nil, traceEvents_append,
    List.append_assoc]
  rfl

/-! ### The two messages received (R183 to R195) -/

/-- The decoder in Command before the first bit of byte `i`, with an empty accumulator. -/
def atByte (last : PulseLength) (i : Byte) (held : Command) : ReceiverState :=
  { messageKind := .command
    lastBurstLength := last
    bitAccumulator := 0
    pendingBitCount := 0
    byteIndex := i
    decodedCommand := held }

section
variable (s : State) {l : PulseLength}

/-- From Idle a sync pause and a message's lead leave it to the lead pause which message it is. -/
theorem decRun_lead (l' : PulseLength) (hkind : s.dec.messageKind = .none) (hl : 1359 ≤ l.toNat) :
    decRun s [pause l, burst 342, pause l'] = s.withDec (pauseInCommand l' (atByte 342 0 s.dec.decodedCommand)) := by
  have hsync : decOnEventCore (pause l) s = s.withDec (atByte s.dec.lastBurstLength 0 s.dec.decodedCommand) := by
    rw [decOnEventCore_of_none _ hkind, eventInIdle_eq, if_pos ⟨rfl, hl⟩]
    rfl
  rw [decRun_cons, hsync, decRun_burst_pause s 342 l' rfl (by decide : (0 : Byte).toNat < 4)]
  rfl

theorem decRun_byteEvents_atByte (last : PulseLength) (i b : Byte) (held : Command) (hi : i.toNat < 4) :
    decRun (s.withDec (atByte last i held)) (lowBitsEvents b 8) = s.withDec
      (atByte 22 (i + 1) (cmd (if i = 0 then b else held.address) (if i = 2 then b else held.code))) :=
  decRun_byteEvents s b rfl rfl hi

/-- Four bytes and the trailing burst leave the 1st and the 3rd byte held, and end Command. -/
theorem decRun_dataEvents (p : Packet) (last : PulseLength) (held : Command) :
    decRun (s.withDec (atByte last 0 held)) (lowBitsEvents p.b0 8 ++ lowBitsEvents p.b1 8 ++ lowBitsEvents p.b2 8 ++
        lowBitsEvents p.b3 8 ++ [burst 22]) =
      s.withDec { atByte 22 4 (cmd p.b0 p.b2) with messageKind := .none } := by
  simp only [decRun_append]
  rw [decRun_byteEvents_atByte, decRun_byteEvents_atByte, decRun_byteEvents_atByte, decRun_byteEvents_atByte]
  · rfl
  all_goals decide

/-- From Idle a sync pause and a command message, of any four bytes, leave the 1st and the 3rd byte held. -/
theorem decRun_commandMessage (p : Packet) (hkind : s.dec.messageKind = .none) (hl : 1359 ≤ l.toNat) :
    decRun s (pause l :: traceEvents (commandPulses p)) =
      s.withDec { atByte 22 4 (cmd p.b0 p.b2) with messageKind := .none } := by
  rw [traceEvents_commandPulses, List.append_assoc, ← List.cons_append, decRun_append, decRun_lead s 171 hkind hl,
    pauseInCommand_of_commandStart rfl, decRun_dataEvents]

/-- From Idle a sync pause and a keypress message deliver the held command (R192), into Idle again. -/
theorem decRun_keypressMessage (hkind : s.dec.messageKind = .none) (hl : 1359 ≤ l.toNat) :
    decRun s (pause l :: traceEvents keypressPulses) =
      (s.withRcv (if s.rcv.length < 8 then s.rcv ++ [s.dec.decodedCommand] else s.rcv)).withDec
        { atByte 342 0 s.dec.decodedCommand with messageKind := .none } := by
  have hevents : pause l :: traceEvents keypressPulses = [pause l, burst 342, pause 83] ++ [burst 22] := rfl
  rw [hevents, decRun_append, decRun_lead s 83 hkind hl, pauseInCommand_of_keypressStart rfl, decRun_cons,
    decOnEventCore_of_keypress_burst rfl rfl]
  rfl

end

/-- Settles O53: the command message leaves the 1st and the 3rd byte held, whatever the other two are, and the keypress
message delivers them. -/
theorem complementBytesAreNotChecked : Obligations.ComplementBytesAreNotChecked := by
  intro p silence s hctx hkind hroom hsilence
  obtain ⟨rs, hexec⟩ := execAll_decOnevent (pause silence :: traceEvents (packetTrace p 0)) hctx
  refine ⟨_, hexec, ?_⟩
  rw [traceEvents_packetTrace_zero, ← List.cons_append, decRun_append, decRun_commandMessage s p hkind hsilence,
    decRun_keypressMessage _ rfl (by decide)]
  exact ⟨if_pos hroom, rfl⟩

end Sys2Proof.Machine

/-! SUPPORT. The timer family (43_timer.md R210): the countdown after one tick, what TMR.TICK answers from the ISR, and the
statement O55 assembled from them. -/

namespace Sys2Proof.Machine

/-- One tick takes one from the countdown and stops at 0: the subtraction of `Nat`, with no wrap (R210). -/
theorem countdownNext_toNat (t : Ticks) : (countdownNext t).toNat = t.toNat - 1 := by
  rw [countdownNext]
  split
  case isTrue hzero =>
    rw [hzero]
    rfl
  case isFalse hpos => bv_omega

theorem ctxRuleOf_allows_of_isr {i : Instr} {s : State} (hctx : s.ctx = .isr) (hrule : ctxRuleOf i = .isrOnly) :
    (ctxRuleOf i).allows s.ctx = true := by
  rw [hrule, CtxRule.isrOnly_allows]
  exact hctx

theorem exec_tmrTick_of_isr {s : State} (hctx : s.ctx = .isr) :
    exec .tmrTick s =
      .next ((s.withCountdown (countdownNext s.countdown)).answerWord (wordOfTicks (countdownNext s.countdown))) :=
  (exec_next_iff _ _ _).2 ⟨ctxRuleOf_allows_of_isr hctx rfl, rfl⟩

/-- Settles O55: TMR.TICK's row allows the ISR alone, and the countdown is fixed by its value, which a tick lowers by one. -/
theorem tickCountsDown : Obligations.TickCountsDown := by
  refine ⟨decode_tmrTick, fun s hctx => ?_, fun s n hctx hn => ?_⟩
  · have hwrong : (ctxRuleOf .tmrTick).allows s.ctx = false := by rw [hctx]; rfl
    rw [exec_wrongContext hwrong, hctx]
    rfl
  · have hnext : n = countdownNext s.countdown := BitVec.eq_of_toNat_eq (hn.trans (countdownNext_toNat s.countdown).symm)
    rw [exec_tmrTick_of_isr hctx, ← hnext, answerWord_eq]
    rfl

end Sys2Proof.Machine

/-! SUPPORT. The exception family (60_exceptions.md R231, R232): the operations each context may issue, that an operation from an
allowed context completes, and the statement O15 assembled from them. -/

namespace Sys2Proof.Machine

/-- The POLL column of R232: the operations POLL may not issue. -/
theorem ctxRuleOf_allows_poll_eq_false_iff (i : Instr) :
    (ctxRuleOf i).allows .poll = false ↔ i = .tmrTick ∨ ∃ e, i = .capTrywrite e := by
  cases i <;> simp [ctxRuleOf, CtxRule.allows]

/-- The ISR column of R232: the operations the ISR may issue. -/
theorem ctxRuleOf_allows_isr_iff (i : Instr) :
    (ctxRuleOf i).allows .isr = true ↔ i = .tmrTick ∨ (∃ e, i = .capTrywrite e) ∨
      i ∈ [Instr.outClear, .capClear, .rcvClear, .outFreespace, .capFreespace, .rcvFreespace] := by
  cases i <;> simp [ctxRuleOf, CtxRule.allows]

/-- No operation has a precondition beside its context (R80). -/
theorem exec_completes {i : Instr} {s : State} (h : (ctxRuleOf i).allows s.ctx = true) : ∃ t, exec i s = .next t :=
  ⟨_, (exec_next_iff i s _).2 ⟨h, rfl⟩⟩

/-- Settles O15: the context is the only check, so the table's two columns say which operations complete and which are refused. -/
theorem contextTable : Obligations.ContextTable := by
  refine ⟨fun i s hctx hi => ?_, fun i s hctx htick hwrite => exec_completes ?_,
    fun i s hctx hi => exec_completes ?_, fun i s hctx htick hwrite hqueue => ?_⟩
  · rw [← hctx]
    exact exec_wrongContext (by rw [hctx, ctxRuleOf_allows_poll_eq_false_iff]; exact hi)
  · rw [hctx, ← Bool.not_eq_false, ctxRuleOf_allows_poll_eq_false_iff]
    exact not_or.2 ⟨htick, not_exists.2 hwrite⟩
  · rw [hctx, ctxRuleOf_allows_isr_iff]
    exact hi
  · rw [← hctx]
    apply exec_wrongContext
    rw [hctx, ← Bool.not_eq_true, ctxRuleOf_allows_isr_iff]
    exact not_or.2 ⟨htick, not_or.2 ⟨not_exists.2 hwrite, hqueue⟩⟩

end Sys2Proof.Machine

/-! SUPPORT. The reset family (70_reset_and_hazards.md R250): the system reset does not read the state before it, and the
statement O10, every field's value read off the table of 10_state.md R41. -/

namespace Sys2Proof.Machine

/-- Nothing survives a system reset (R40, R250). -/
@[simp] theorem systemReset_eq_reset (s : State) : systemReset s = State.reset := rfl

/-- Settles O10: the state before is lost, so every clause is about a field of the one reset state. -/
theorem systemResetState : Obligations.SystemResetState := by
  intro s
  rw [systemReset_eq_reset]
  exact ⟨rfl, rfl, rfl, rfl, rfl, rfl, rfl, rfl, rfl⟩

end Sys2Proof.Machine

/-! SUPPORT. The two directions of the operation port (30_encoding.md R83 to R85, R92): an operand stays within the DIN bits its
layout names, so the encoder and the decoder are inverse to each other; the byte order of the layouts; and the statements O1,
O2, O5 and O7 assembled from them. -/

namespace Sys2Proof

open Machine

/-! ### Encode and decode -/

/-- An operand shows no DIN bit beside those its layout names. -/
theorem dinOf_and_dinMask (i : Instr) : dinOf i &&& dinMask i = dinOf i := by
  cases i with
  | outTrywrite p => exact Laws.Port.wordOfPacket_masked p
  | capTrywrite e => exact Laws.Port.wordOfEvent_masked e
  | rcvTrywrite c => exact Laws.Port.wordOfCommand_masked c
  | encSubmit c => exact Laws.Port.wordOfCommand_masked c
  | encStep t => exact Laws.Port.wordOfTicks_masked t
  | decOnevent e => exact Laws.Port.wordOfEvent_masked e
  | _ => rfl

theorem decode_encode (i : Instr) : decode (encode i).1 (encode i).2 = .ok i := decode_opcodeOf (dinOf_and_dinMask i).symm

/-- Settles O1: the encoder's DIN is within the operation's mask, so `decode_opcodeOf` reads the operand back. -/
theorem decodeOfEncodeIsIdentity : Obligations.DecodeOfEncodeIsIdentity := fun i _ => decode_encode i

/-- Settles O2: the half of `decode_eq_ok_iff` that starts from a decoded operation. -/
theorem encodeOfDecodeKeepsReadBits : Obligations.EncodeOfDecodeKeepsReadBits := fun _ _ _ => encode_of_decode

/-- The packet ENC.SUBMIT queues at reset is the one OUT.TRYREAD then lays out on DOUT (R92). -/
theorem execAll_submit_tryread_reset (c : Command) :
    ∃ t, execAll [.encSubmit c, .outTryread] State.reset = .next t ∧
      t.results.getLast? = some { ok := true, dout := wordOfPacket (packetOfCommand c) } :=
  ⟨_, rfl, rfl⟩

/-- Settles O5: each example read forwards by computing its word, and backwards by `decode_encode`. -/
theorem workedEncodings : Obligations.WorkedEncodings := by
  have hpacket : wordOfPacket (pkt 0x00 0xFF 0x46 0xB9) = 0xB946FF00 := by decide
  have hsubmit : encode (.encSubmit (cmd 0x00 0x46)) = (0x32, 0x00004600) := by decide
  have hpause : encode (.decOnevent (pause 1510)) = (0x43, 0x000005E6) := by decide
  have hburst : encode (.decOnevent (burst 22)) = (0x43, 0x00008016) := by decide
  have hstep : encode (.encStep 0) = (0x34, 0x00000000) := by decide
  have hback {i : Instr} {op : Byte} {din : Word} (h : encode i = (op, din)) : decode op din = .ok i := by
    simpa [h] using decode_encode i
  exact ⟨hsubmit, hback hsubmit, execAll_submit_tryread_reset (cmd 0x00 0x46), hpacket, hpause, hback hpause, hburst,
    hback hburst, hstep, hback hstep⟩

/-! ### Byte order and upper bits (R65, R85) -/

theorem byteOf_wordOfPacket (p : Packet) {i : Nat} (hi : i < 4) : byteOf (wordOfPacket p) i = packetByte p i := by
  have h := packetOfWord_wordOfPacket p
  interval_cases i
  · exact congrArg Packet.b0 h
  · exact congrArg Packet.b1 h
  · exact congrArg Packet.b2 h
  · exact congrArg Packet.b3 h

/-- A word within the mask of its lower half has a zero upper half. -/
theorem extractLsb'_upper_of_masked {w : Word} (h : w &&& 0xFFFF#32 = w) : w.extractLsb' 16 16 = 0 := by
  rw [← h]
  apply BitVec.eq_of_getLsbD_eq
  intro i hi
  simp [BitVec.getLsbD_extractLsb', mask16_getLsbD (16 + i) (by omega)]

/-- Settles O7: the bytes are those the layouts' inverses read back (an event word lies on the port as a tick count does), and
every layout but the packet's is within the lower half. -/
theorem portByteOrder : Obligations.PortByteOrder := by
  refine ⟨fun p i hi => byteOf_wordOfPacket p hi, fun c => ?_, fun e => ?_, fun t => ?_⟩
  · have h := commandOfWord_wordOfCommand c
    exact ⟨congrArg Command.address h, congrArg Command.code h,
      extractLsb'_upper_of_masked (Laws.Port.wordOfCommand_masked c)⟩
  · exact ⟨ticksOfWord_wordOfTicks (eventBits e), extractLsb'_upper_of_masked (Laws.Port.wordOfEvent_masked e)⟩
  · exact ⟨ticksOfWord_wordOfTicks t, extractLsb'_upper_of_masked (Laws.Port.wordOfTicks_masked t)⟩

end Sys2Proof

/-! SUPPORT. One step and a run of steps (30_encoding.md R80, 10_state.md R21, R31, R36): what a step can be, the invariant kept
by every operation, and the statements O8, O9, O12 to O14, O16, O18 and O19 assembled from them. -/

namespace Sys2Proof.Machine

/-! ### A step (R80) -/

theorem step_of_port_nil {s : State} (hport : s.port = []) : step s = .next s := by
  simp only [step, fetch, hport]

theorem step_of_port_cons {s : State} {p : Presentation} {rest : List Presentation} {i : Instr}
    (hport : s.port = p :: rest) (hdecode : decode p.op p.din = .ok i) : step s = exec i (s.accept p.ctx rest) := by
  simp only [step, fetch, hport, hdecode]

/-- A step that completes waits on an empty port, or executes the operation its next presentation stands for. -/
theorem step_next_cases {s t : State} (h : step s = .next t) :
    t = s ∨ ∃ c rest i, exec i (s.accept c rest) = .next t := by
  cases hport : s.port with
  | nil =>
    rw [step_of_port_nil hport] at h
    cases h
    exact .inl rfl
  | cons p rest =>
    cases hdecode : decode p.op p.din with
    | ok i =>
      rw [step_of_port_cons hport hdecode] at h
      exact .inr ⟨p.ctx, rest, i, h⟩
    | error e =>
      rw [step_of_decode_error hport hdecode] at h
      cases h

/-- What every step keeps holds after any number of steps. -/
theorem core_run_induction {P : State → Prop} (hstep : ∀ s t, P s → step s = .next t → P t) (k : Nat) {s t : State}
    (hs : P s) (h : Sys2Proof.core.run k s = .next t) : P t := by
  induction k generalizing s with
  | zero =>
    cases h
    exact hs
  | succ k ih =>
    simp only [Host.Core.run] at h
    split at h
    case h_1 u hu => exact ih (hstep s u hs hu) h
    all_goals cases h

/-- Settles O8: `accept` is the update the statement writes out. -/
theorem stepRunsTheDecodedOperation : Obligations.StepRunsTheDecodedOperation :=
  fun _ _ _ _ hport hdecode _ => step_of_port_cons hport hdecode

/-- Settles O9: with an empty port there is nothing to fetch. -/
theorem stepWaitsOnAnEmptyPort : Obligations.StepWaitsOnAnEmptyPort := fun _ => step_of_port_nil

/-! ### The port's fields (R38, R80) -/

/-- A transition of the encoder leaves the port, its context and its answers as they were. -/
theorem encTransition_portFields (s : State) :
    (encTransition s).1 = { (encTransition s).1 with port := s.port, ctx := s.ctx, results := s.results } := by
  rcases encTransition_shape s with ⟨-, -, h⟩ | ⟨q, e, n, -, -, ⟨h, -⟩ | ⟨h, -⟩ | ⟨h, -⟩ | ⟨h, -⟩⟩ <;>
    rw [h] <;> rfl

/-- An operation's effect leaves the port, its context and the earlier answers as they were. -/
theorem coreEffect_portFields (i : Instr) (s : State) :
    coreEffect i s = { coreEffect i s with port := s.port, ctx := s.ctx, results := s.results } := by
  cases i with
  | encStep rt =>
    rcases coreEffect_encStep rt s with h | h <;> rw [h]
    · rfl
    · exact encTransition_portFields (s.encRecord rt)
  | decOnevent e => rw [coreEffect, decOnEventCore_fields]
  | _ => rfl

/-- Settles O16: the context is the only check, and the one answer is appended to an effect that leaves the port's fields. -/
theorem everyOperationCompletes : Obligations.EveryOperationCompletes := by
  intro i s hallowed
  refine ⟨_, coreAnswer i s, (exec_next_iff i s _).2 ⟨hallowed, rfl⟩, ?_⟩
  rw [coreEffect_portFields]
  exact ⟨rfl, rfl, rfl⟩

/-! ### The queue bounds (R21, R22) -/

theorem encTransition_out_length_le (s : State) : (encTransition s).1.out.length ≤ s.out.length := by
  rcases encTransition_shape s with
    ⟨-, -, h⟩ | ⟨q, e, n, -, -, ⟨h, -, hout⟩ | ⟨h, -, rfl⟩ | ⟨h, -, rfl⟩ | ⟨h, -, rfl⟩⟩ <;> rw [h]
  · rw [hout]
    exact Nat.le_succ q.length
  all_goals exact Nat.le_refl s.out.length

theorem coreEffect_out_length_le (i : Instr) {s : State} (h : s.out.length ≤ 2) : (coreEffect i s).out.length ≤ 2 := by
  cases i with
  | outTrywrite p => exact tryWrite_length_le Config.outShape s.out p (by decide) h
  | encSubmit c => exact tryWrite_length_le Config.outShape s.out (packetOfCommand c) (by decide) h
  | outTryread => exact le_trans (by simp [coreEffect]) h
  | outClear => exact Nat.zero_le 2
  | encStep rt =>
    rcases coreEffect_encStep rt s with he | he <;> rw [he]
    · exact h
    · exact (encTransition_out_length_le (s.encRecord rt)).trans h
  | decOnevent e => exact (congrArg List.length (decOnEventCore_out e s)).trans_le h
  | _ => exact h

theorem coreEffect_cap_length_le (i : Instr) {s : State} (h : s.cap.length ≤ 16) :
    (coreEffect i s).cap.length ≤ 16 := by
  cases i with
  | capTrywrite e => exact tryWrite_length_le Config.capShape s.cap e (by decide) h
  | capTryread => exact le_trans (by simp [coreEffect]) h
  | capClear => exact Nat.zero_le 16
  | encStep rt => exact (congrArg List.length (encStepCore_cap rt s)).trans_le h
  | decOnevent e => exact (congrArg List.length (decOnEventCore_cap e s)).trans_le h
  | _ => exact h

theorem coreEffect_rcv_length_le (i : Instr) {s : State} (h : s.rcv.length ≤ 8) : (coreEffect i s).rcv.length ≤ 8 := by
  cases i with
  | rcvTrywrite c => exact tryWrite_length_le Config.rcvShape s.rcv c (by decide) h
  | rcvTryread | decTake => exact le_trans (by simp [coreEffect]) h
  | rcvClear => exact Nat.zero_le 8
  | encStep rt => exact (congrArg List.length (encStepCore_rcv rt s)).trans_le h
  | decOnevent e =>
    rcases decOnEventCore_cases e s with ⟨d, he⟩ | ⟨-, -, he⟩ <;> rw [coreEffect, he]
    · exact h
    · exact tryWrite_length_le Config.rcvShape s.rcv s.dec.decodedCommand (by decide) h
  | _ => exact h

theorem coreEffect_queueBounds (i : Instr) {s : State} (h : QueueBounds s) : QueueBounds (coreEffect i s) := by
  obtain ⟨hout, hcap, hrcv⟩ := h
  exact ⟨coreEffect_out_length_le i hout, coreEffect_cap_length_le i hcap, coreEffect_rcv_length_le i hrcv⟩

/-! ### OUTMODE is the level of the last trace entry (R36) -/

/-- The level one primitive call leaves on the output port (R36). -/
def modeOfEntry : TraceEntry → OutMode
  | .burst _ => .burst
  | .pause _ => .pause
  | .stop => .off

@[simp] theorem modeOfTrace_append (tr : List TraceEntry) (x : TraceEntry) : modeOfTrace (tr ++ [x]) = modeOfEntry x := by
  rw [modeOfTrace, List.getLast?_concat]
  cases x <;> rfl

theorem encTransition_mode {s : State} (h : s.outMode = modeOfTrace s.trace) :
    (encTransition s).1.outMode = modeOfTrace (encTransition s).1.trace := by
  rcases encTransition_shape s with ⟨-, -, ht⟩ | ⟨q, e, n, -, -, ⟨ht, -⟩ | ⟨ht, -⟩ | ⟨ht, -⟩ | ⟨ht, -⟩⟩ <;> rw [ht]
  · exact h
  all_goals simp [modeOfEntry]

theorem coreEffect_mode (i : Instr) {s : State} (h : s.outMode = modeOfTrace s.trace) :
    (coreEffect i s).outMode = modeOfTrace (coreEffect i s).trace := by
  by_cases hstep : ∃ rt, i = .encStep rt
  · obtain ⟨rt, rfl⟩ := hstep
    rcases coreEffect_encStep rt s with he | he <;> rw [he]
    · exact h
    · exact encTransition_mode (s := s.encRecord rt) h
  · obtain ⟨hmode, htrace⟩ := coreEffect_outMode_trace_eq i s (not_exists.1 hstep)
    rw [hmode, htrace, h]

/-! ### The encoder's reachable states (R31) -/

/-- `EncInv` read off status by status (R31). -/
def EncInvAt (e : EmitterState) : Prop :=
  match e.status with
  | .idle => e.messageKind = .none
  | .leadBurst | .leadPause =>
    e.messageKind = .command ∧ e.currentByte.val = 0 ∧ e.pendingBitCount.val = 8 ∨ e.messageKind = .keypress
  | .dataBitBurst => e.messageKind = .command ∧ e.currentByte.val ≤ 3 ∧ 1 ≤ e.pendingBitCount.val
  | .dataBitPause => e.messageKind = .command ∧ (e.currentByte.val < 4 → 1 ≤ e.pendingBitCount.val)
  | .trailingBurst => e.messageKind = .command ∨ e.messageKind = .keypress
  | .intervalPause => e.messageKind = .keypress

theorem encInv_iff (e : EmitterState) : EncInv e ↔ EncInvAt e := by
  have hbyte : e.currentByte.val ≤ 4 := Nat.le_of_lt_succ e.currentByte.isLt
  have hbits : e.pendingBitCount.val ≤ 8 := Nat.le_of_lt_succ e.pendingBitCount.isLt
  cases hst : e.status <;> cases hkind : e.messageKind <;> simp [EncInv, EncReachable, EncInvAt, hst, hkind, hbyte, hbits]

theorem encForceIdle_encInv (e : EmitterState) : EncInv (encForceIdle e) := (encInv_iff _).2 rfl

theorem encTransition_encInv {s : State} (h : EncInv s.enc) : EncInv (encTransition s).1.enc := by
  rw [encInv_iff] at h ⊢
  cases hst : s.enc.status with
  | idle =>
    cases hout : s.out with
    | nil => rw [encTransition_idle_nil s hst hout]; exact h
    | cons p rest => rw [encTransition_idle_cons s hst hout]; exact .inl ⟨rfl, rfl, rfl⟩
  | leadBurst =>
    rw [encTransition_leadBurst s hst]
    simpa [EncInvAt, hst] using h
  | leadPause =>
    simp only [EncInvAt, hst] at h
    rw [encTransition_leadPause s hst]
    rcases h with ⟨hkind, hbyte, hbits⟩ | hkind <;> simp [EncInvAt, *]
  | dataBitBurst =>
    simp only [EncInvAt, hst] at h
    obtain ⟨hkind, hbyte, hbits⟩ := h
    rw [encTransition_dataBitBurst s hst]
    refine ⟨hkind, fun hleft : (encAdvanceBit s.enc).currentByte.val < 4 => ?_⟩
    show 1 ≤ (encAdvanceBit s.enc).pendingBitCount.val
    rw [encAdvanceBit_currentByte s.enc hbyte hbits] at hleft
    rw [encAdvanceBit_pendingBitCount s.enc hbyte hbits]
    split_ifs at hleft ⊢ <;> omega
  | dataBitPause =>
    simp only [EncInvAt, hst] at h
    obtain ⟨hkind, hbits⟩ := h
    rw [encTransition_dataBitPause s hst]
    by_cases hleft : s.enc.currentByte.val < 4
    · simp only [if_pos hleft]
      exact ⟨hkind, Nat.le_of_lt_succ hleft, hbits hleft⟩
    · simp only [if_neg hleft]
      exact .inl hkind
  | trailingBurst =>
    simp only [EncInvAt, hst] at h
    by_cases hkind : s.enc.messageKind = .command
    · rw [encTransition_trailingBurst_command s hst hkind]; rfl
    by_cases hrepeat : s.enc.repeatCount = 0
    · rw [encTransition_trailingBurst_last s hst hkind hrepeat]; rfl
    · rw [encTransition_trailingBurst_repeat s hst hkind hrepeat]; exact h.resolve_left hkind
  | intervalPause =>
    simp only [EncInvAt, hst] at h
    rw [encTransition_intervalPause s hst]
    exact .inr h

theorem coreEffect_encInv (i : Instr) {s : State} (h : EncInv s.enc) : EncInv (coreEffect i s).enc := by
  cases i with
  | encReset => exact encForceIdle_encInv s.enc
  | encStep rt =>
    rcases coreEffect_encStep rt s with he | he <;> rw [he]
    · exact h
    · exact encTransition_encInv (s := s.encRecord rt) h
  | decOnevent e => rwa [coreEffect, decOnEventCore_enc]
  | _ => exact h

/-! ### The invariant -/

theorem coreEffect_inv (i : Instr) {s : State} (h : Inv s) : Inv (coreEffect i s) := by
  obtain ⟨hqueues, henc, hmode⟩ := h
  exact ⟨coreEffect_queueBounds i hqueues, coreEffect_encInv i henc, coreEffect_mode i hmode⟩

/-- Settles O12: empty queues, the encoder in Idle, no primitive called. -/
theorem resetMeetsTheInvariant : Obligations.ResetMeetsTheInvariant :=
  ⟨⟨Nat.zero_le 2, Nat.zero_le 16, Nat.zero_le 8⟩, (encInv_iff _).2 rfl, rfl⟩

/-- Settles O13: the invariant reads neither the port's fields nor the answers, so a step keeps it as its operation's effect does. -/
theorem stepKeepsTheInvariant : Obligations.StepKeepsTheInvariant := by
  intro s t hinv hstep
  rcases step_next_cases hstep with rfl | ⟨c, rest, i, hexec⟩
  · exact hinv
  · obtain ⟨-, rfl⟩ := (exec_next_iff _ _ _).1 hexec
    exact coreEffect_inv i (s := s.accept c rest) hinv

/-- Settles O14: the invariant holds at reset, whatever is presented, and every step keeps it. -/
theorem reachableEncoderStates : Obligations.ReachableEncoderStates := by
  intro ps k t hrun
  have hreset : Inv { State.reset with port := ps } := resetMeetsTheInvariant
  obtain ⟨-, ⟨hreachable, -⟩, -⟩ := core_run_induction stepKeepsTheInvariant k hreset hrun
  exact hreachable

/-! ### Primitive calls (R130) and `repeatCount` (R29) -/

/-- ENC.STEP keeps the status and only records its operand, or it changes the status and calls one primitive after writing OUT
and the encoder. -/
theorem encStepCore_shape (rt : Ticks) (s : State) :
    ((encStepCore rt s).1 = s.encRecord rt ∧
      ((encStepCore rt s).2 = .notSending ∨ (encStepCore rt s).2 = .inProgress)) ∨
    ∃ q e n, e.status ≠ s.enc.status ∧
      (encStepCore rt s = (startBurst ((s.withOut q).withEnc e) n, .started) ∨
        encStepCore rt s = (startBurst ((s.withOut q).withEnc e) n, .inProgress) ∨
        encStepCore rt s = (startPause ((s.withOut q).withEnc e) n, .inProgress) ∨
        encStepCore rt s = (stopOutput ((s.withOut q).withEnc e), .ended)) := by
  rcases encStepCore_cases rt s with ⟨-, -, h⟩ | ⟨-, h⟩ <;> rw [h]
  · exact .inl ⟨rfl, .inr rfl⟩
  · rcases encTransition_shape (s.encRecord rt) with ⟨-, -, ht⟩ | ⟨q, e, n, hst, -, hcall⟩
    · exact .inl ⟨congrArg Prod.fst ht, .inl (congrArg Prod.snd ht)⟩
    · exact .inr ⟨q, e, n, hst, hcall.imp And.left (Or.imp And.left (Or.imp And.left And.left))⟩

/-- Settles O18: only ENC.STEP touches the output, and `encStepCore_shape` lists what it calls. -/
theorem onePrimitivePerTransition : Obligations.OnePrimitivePerTransition := by
  refine ⟨fun i s t hexec hstep => ?_, fun rt s t hexec => ?_⟩
  · obtain ⟨-, rfl⟩ := (exec_next_iff i s t).1 hexec
    obtain ⟨hmode, htrace⟩ := coreEffect_outMode_trace_eq i s hstep
    exact ⟨htrace, hmode⟩
  · obtain ⟨-, rfl⟩ := (exec_next_iff _ s t).1 hexec
    simp only [coreEffect, coreAnswer, State.respond_enc, State.respond_trace, State.respond_outMode,
      State.respond_countdown, State.respond_results]
    rcases encStepCore_shape rt s with ⟨hs, hr⟩ | ⟨q, e, n, hst, h | h | h | h⟩
    · rw [hs]
      refine ⟨fun _ => ⟨rfl, rfl, rfl, _, ?_, rfl⟩, fun hne => absurd rfl hne⟩
      rcases hr with hr | hr <;> rw [hr]
      · exact .inl rfl
      · exact .inr rfl
    · rw [h]
      exact ⟨fun heq => absurd heq hst, fun _ => .inl ⟨.inl ⟨n, rfl, rfl, rfl⟩, _, .inl rfl, rfl⟩⟩
    · rw [h]
      exact ⟨fun heq => absurd heq hst, fun _ => .inl ⟨.inl ⟨n, rfl, rfl, rfl⟩, _, .inr rfl, rfl⟩⟩
    · rw [h]
      exact ⟨fun heq => absurd heq hst, fun _ => .inl ⟨.inr ⟨n, rfl, rfl, rfl⟩, _, .inr rfl, rfl⟩⟩
    · rw [h]
      exact ⟨fun heq => absurd heq hst, fun _ => .inr ⟨rfl, rfl, rfl, rfl⟩⟩

theorem encTransition_repeatCount_le (s : State) :
    (encTransition s).1.enc.repeatCount.toNat ≤ s.enc.repeatCount.toNat := by
  rcases encTransition_shape s with ⟨-, -, h⟩ | ⟨q, e, n, -, hle, ⟨h, -⟩ | ⟨h, -⟩ | ⟨h, -⟩ | ⟨h, -⟩⟩ <;> rw [h]
  all_goals exact hle

/-- Settles O19: ENC.RESET sets it to 0, a transition does not raise it, and nothing else writes the encoder. -/
theorem repeatCountNeverRises : Obligations.RepeatCountNeverRises := by
  intro i s t hexec
  obtain ⟨-, rfl⟩ := (exec_next_iff i s t).1 hexec
  rw [State.respond_enc]
  cases i with
  | encReset => exact Nat.zero_le s.enc.repeatCount.toNat
  | encStep rt =>
    rcases coreEffect_encStep rt s with he | he <;> rw [he]
    · exact Nat.le_refl s.enc.repeatCount.toNat
    · exact encTransition_repeatCount_le (s.encRecord rt)
  | decOnevent e => rw [coreEffect, decOnEventCore_enc]
  | _ => exact Nat.le_refl s.enc.repeatCount.toNat

end Sys2Proof.Machine

/-! SUPPORT. The trace of a transmission (41_encoder.md R148): every transition of a busy encoder pays the first entry of what it
owes, so the trace and the rest owed are one constant; and the statements O40 and O41 assembled from that. -/

namespace Sys2Proof.Machine

/-! ### What is owed, one pulse at a time (R148) -/

theorem dataPulsesFrom_of_lt (p : Packet) {k : Nat} (hk : k < 32) :
    dataPulsesFrom p k = .burst 22 :: .pause (if wireBit p k then 64 else 21) :: dataPulsesFrom p (k + 1) := by
  have hcount : 32 - k = (32 - (k + 1)) + 1 := by omega
  rw [dataPulsesFrom, hcount, List.range'_succ]
  rfl

theorem dataPulsesFrom_end (p : Packet) : dataPulsesFrom p 32 = [] := rfl

theorem pulsesAfterKeypress_zero : pulsesAfterKeypress 0 = [.stop] := rfl

theorem pulsesAfterKeypress_succ (r : Nat) :
    pulsesAfterKeypress (r + 1) = .pause Config.autorepeatPause :: (keypressPulses ++ pulsesAfterKeypress r) := by
  simp [pulsesAfterKeypress, repeatPulses, List.replicate_succ]

/-- A packet's trace is its lead burst followed by what the encoder owes on entering LeadBurst. -/
theorem packetTrace_eq (p : Packet) (r : Nat) :
    packetTrace p r = .burst 342 :: .pause 171 :: (dataPulsesFrom p 0 ++ pulsesAfterData r) := by
  simp [packetTrace, packetPulses, commandPulses, dataPulsesFrom, pulsesAfterData, pulsesAfterKeypress,
    List.range_eq_range']

/-! ### The wire position (R63, R141) -/

section
variable {e : EmitterState} (hbyte : e.currentByte.val ≤ 3) (hbits : 1 ≤ e.pendingBitCount.val)
include hbyte hbits

theorem wirePosition_lt : wirePosition e < 32 := by
  have := e.pendingBitCount.isLt
  unfold wirePosition
  omega

theorem encDataBit_eq_wireBit : encDataBit e = wireBit e.packetBuffer (wirePosition e) := by
  have := e.pendingBitCount.isLt
  have hdiv : wirePosition e / 8 = e.currentByte.val := by unfold wirePosition; omega
  have hmod : wirePosition e % 8 = 8 - e.pendingBitCount.val := by unfold wirePosition; omega
  rw [encDataBit_in_packet e hbyte hbits, wireBit, hdiv, hmod]

/-- After the advance the next bit is at the next wire position, or the packet's 32 bits are sent. -/
theorem wirePosition_encAdvanceBit :
    if (encAdvanceBit e).currentByte.val < 4 then wirePosition (encAdvanceBit e) = wirePosition e + 1
    else wirePosition e + 1 = 32 := by
  have := e.pendingBitCount.isLt
  simp only [wirePosition, encAdvanceBit_currentByte e hbyte hbits, encAdvanceBit_pendingBitCount e hbyte hbits]
  split_ifs <;> omega

end

/-- The burst that enters DataBitBurst is the first entry owed from its bit on. -/
theorem burst_cons_remainingPulses {e : EmitterState} (hst : e.status = .dataBitBurst) (hpos : wirePosition e < 32) :
    .burst 22 :: remainingPulses e =
      dataPulsesFrom e.packetBuffer (wirePosition e) ++ pulsesAfterData e.repeatCount.toNat := by
  simp only [remainingPulses, hst, dataPulsesFrom_of_lt e.packetBuffer hpos, List.cons_append]

/-- After a data bit's pause the rest owed starts at the advanced position. -/
theorem remainingPulses_dataBitPause {e : EmitterState} (hbyte : e.currentByte.val ≤ 3)
    (hbits : 1 ≤ e.pendingBitCount.val) :
    remainingPulses { encAdvanceBit e with status := .dataBitPause } =
      dataPulsesFrom e.packetBuffer (wirePosition e + 1) ++ pulsesAfterData e.repeatCount.toNat := by
  have hnext := wirePosition_encAdvanceBit hbyte hbits
  have hfields := encAdvanceBit_fields e
  split_ifs at hnext with hleft
  · rw [← hnext, hfields]
    exact if_pos hleft
  · rw [hnext, dataPulsesFrom_end, hfields]
    exact if_neg hleft

/-! ### Every transition of a busy encoder pays one entry -/

/-- From a reachable state outside Idle a transition either appends the first entry owed and still owes the rest, or owes only
Stop and ends the transmission. -/
theorem encTransition_of_busy {s : State} (hinv : EncInv s.enc) (hbusy : s.enc.status ≠ .idle) :
    (∃ t x, encTransition s = (t, .inProgress) ∧ remainingPulses s.enc = x :: remainingPulses t.enc ∧
      t.trace = s.trace ++ [x] ∧ t.enc.status ≠ .idle ∧ t.out = s.out) ∨
    (encTransition s = ((stopOutput s).withEnc { s.enc with status := .idle, messageKind := .none }, .ended) ∧
      remainingPulses s.enc = [.stop] ∧ s.enc.repeatCount = 0) := by
  rw [encInv_iff] at hinv
  cases hst : s.enc.status with
  | idle => exact absurd hst hbusy
  | leadBurst =>
    refine .inl ⟨_, .pause (if s.enc.messageKind = .command then 171 else 83), encTransition_leadBurst s hst, ?_, rfl,
      nofun, rfl⟩
    by_cases hkind : s.enc.messageKind = .command <;> simp [remainingPulses, hst, hkind]
  | leadPause =>
    simp only [EncInvAt, hst] at hinv
    refine .inl ⟨_, .burst 22, encTransition_leadPause s hst, ?_, rfl, by split <;> nofun, rfl⟩
    rcases hinv with ⟨hkind, hbyte, hbits⟩ | hkind
    · have hpos : wirePosition s.enc = 0 := by simp [wirePosition, hbyte, hbits]
      simp only [remainingPulses, hst, hkind, if_true]
      rw [← hpos]
      exact (burst_cons_remainingPulses (e := { s.enc with status := .dataBitBurst }) rfl
        (wirePosition_lt (e := s.enc) (by omega) (by omega))).symm
    · simp [remainingPulses, hst, hkind]
  | dataBitBurst =>
    simp only [EncInvAt, hst] at hinv
    obtain ⟨hkind, hbyte, hbits⟩ := hinv
    refine .inl ⟨_, .pause (if encDataBit s.enc then 64 else 21), encTransition_dataBitBurst s hst, ?_, rfl, nofun, rfl⟩
    rw [encDataBit_eq_wireBit hbyte hbits]
    simp only [remainingPulses, hst]
    rw [← remainingPulses_dataBitPause hbyte hbits, encAdvanceBit_fields]
    rfl
  | dataBitPause =>
    simp only [EncInvAt, hst] at hinv
    obtain ⟨hkind, hbits⟩ := hinv
    refine .inl ⟨_, .burst 22, encTransition_dataBitPause s hst, ?_, rfl, by split <;> nofun, rfl⟩
    by_cases hleft : s.enc.currentByte.val < 4
    · simp only [remainingPulses, hst, if_pos hleft]
      exact (burst_cons_remainingPulses (e := { s.enc with status := .dataBitBurst }) rfl
        (wirePosition_lt (Nat.le_of_lt_succ hleft) (hbits hleft))).symm
    · simp [remainingPulses, hst, hleft, hkind, pulsesAfterData]
  | trailingBurst =>
    by_cases hkind : s.enc.messageKind = .command
    · refine .inl ⟨_, .pause 1510, encTransition_trailingBurst_command s hst hkind, ?_, rfl, nofun, rfl⟩
      simp [remainingPulses, hst, hkind]
    by_cases hrepeat : s.enc.repeatCount = 0
    · refine .inr ⟨encTransition_trailingBurst_last s hst hkind hrepeat, ?_, hrepeat⟩
      simp [remainingPulses, hst, hkind, hrepeat, pulsesAfterKeypress_zero]
    · refine .inl ⟨_, .pause Config.autorepeatPause, encTransition_trailingBurst_repeat s hst hkind hrepeat, ?_, rfl,
        nofun, rfl⟩
      have hcount : s.enc.repeatCount.toNat = (s.enc.repeatCount - 1).toNat + 1 := by
        bv_omega
      simp only [remainingPulses, hst, if_neg hkind, hcount, pulsesAfterKeypress_succ]
      rfl
  | intervalPause =>
    simp only [EncInvAt, hst] at hinv
    refine .inl ⟨_, .burst 342, encTransition_intervalPause s hst, ?_, rfl, nofun, rfl⟩
    simp [remainingPulses, hst, hinv, keypressPulses]

theorem encTransition_owed {s : State} (hinv : EncInv s.enc) (hbusy : s.enc.status ≠ .idle) :
    (encTransition s).1.trace ++ remainingPulses (encTransition s).1.enc = s.trace ++ remainingPulses s.enc := by
  rcases encTransition_of_busy hinv hbusy with ⟨t, x, ht, howed, htrace, -, -⟩ | ⟨ht, howed, -⟩
  · rw [ht, htrace, howed, List.append_assoc]
    rfl
  · rw [ht, howed]
    exact List.append_nil (s.trace ++ [.stop])

/-- A packet that starts owes its trace but for the lead burst, which is appended. -/
theorem encTransition_starts {s : State} {p : Packet} {rest : List Packet} (hidle : s.enc.status = .idle)
    (hout : s.out = p :: rest) :
    (encTransition s).1.trace ++ remainingPulses (encTransition s).1.enc =
      s.trace ++ packetTrace p s.enc.repeatCount.toNat := by
  rw [encTransition_idle_cons s hidle hout, packetTrace_eq]
  exact List.append_assoc ..

/-- From state `s` to `t` a packet being sent pays what it owes, and one that starts owes its whole trace (R148). -/
def OwesItsTrace (s t : State) : Prop :=
  (s.enc.status ≠ .idle → t.trace ++ remainingPulses t.enc = s.trace ++ remainingPulses s.enc) ∧
  (s.enc.status = .idle → t.enc.status = .idle → t.trace = s.trace) ∧
  (s.enc.status = .idle → t.enc.status ≠ .idle →
    ∃ p rest, s.out = p :: rest ∧
      t.trace ++ remainingPulses t.enc = s.trace ++ packetTrace p s.enc.repeatCount.toNat)

theorem OwesItsTrace.unchanged {s t : State} (hst : t.enc.status = s.enc.status)
    (howed : remainingPulses t.enc = remainingPulses s.enc) (htrace : t.trace = s.trace) : OwesItsTrace s t := by
  rw [OwesItsTrace, hst, howed, htrace]
  exact ⟨fun _ => rfl, fun _ _ => rfl, fun hidle hbusy => absurd hidle hbusy⟩

theorem encTransition_owesItsTrace {s : State} (hinv : EncInv s.enc) : OwesItsTrace s (encTransition s).1 := by
  by_cases hidle : s.enc.status = .idle
  · cases hout : s.out with
    | nil =>
      rw [encTransition_idle_nil s hidle hout]
      exact .unchanged rfl rfl rfl
    | cons p rest =>
      refine ⟨absurd hidle, fun _ hidle' => ?_, fun _ _ => ⟨p, rest, hout, encTransition_starts hidle hout⟩⟩
      rw [encTransition_idle_cons s hidle hout] at hidle'
      cases hidle'
  · exact ⟨encTransition_owed hinv, fun h => absurd h hidle, fun h => absurd h hidle⟩

/-- Settles O40: an operation but ENC.STEP leaves the encoder and the trace; a transition of a busy encoder moves one entry from what
is owed to the trace, and one from Idle starts a packet or does nothing. -/
theorem transmissionOwesItsTrace : Obligations.TransmissionOwesItsTrace := by
  intro i s t hinv hreset hexec
  obtain ⟨-, rfl⟩ := (exec_next_iff i s t).1 hexec
  refine ⟨coreEffect_encInv i hinv, ?_⟩
  change OwesItsTrace s (coreEffect i s)
  by_cases hstep : ∃ rt, i = .encStep rt
  · obtain ⟨rt, rfl⟩ := hstep
    rcases coreEffect_encStep rt s with he | he <;> rw [he]
    · exact .unchanged rfl rfl rfl
    · exact encTransition_owesItsTrace (s := s.encRecord rt) hinv
  · obtain ⟨-, htrace⟩ := coreEffect_outMode_trace_eq i s (not_exists.1 hstep)
    have henc := coreEffect_enc_eq i s hreset (not_exists.1 hstep)
    exact .unchanged (congrArg _ henc) (congrArg _ henc) htrace

/-! ### The STEPs of one packet -/

/-- What ENC.STEP outside Idle leaves as it was, of what the STEPs of one packet need. -/
structure EncFrame (s t : State) : Prop where
  ctx : t.ctx = s.ctx
  out : t.out = s.out
  rcv : t.rcv = s.rcv
  dec : t.dec = s.dec

theorem EncFrame.trans {s t u : State} (h : EncFrame s t) (h' : EncFrame t u) : EncFrame s u :=
  ⟨h'.ctx.trans h.ctx, h'.out.trans h.out, h'.rcv.trans h.rcv, h'.dec.trans h.dec⟩

/-- `t` is the end of the transmission `s` is in the middle of, after `n` answers InProgress and one Ended (R148). -/
structure Transmitted (s : State) (n : Nat) (t : State) : Prop where
  frame : EncFrame s t
  trace : t.trace = s.trace ++ remainingPulses s.enc
  status : t.enc.status = .idle
  messageKind : t.enc.messageKind = .none
  repeatCount : t.enc.repeatCount = 0
  outMode : t.outMode = .off
  results : t.results = s.results ++ List.replicate n ⟨true, 2⟩ ++ [⟨true, 3⟩]

theorem encFrame_of_exec {rt : Ticks} {s t : State} (hexec : exec (.encStep rt) s = .next t) (hout : t.out = s.out) :
    EncFrame s t := by
  obtain ⟨-, rfl⟩ := (exec_next_iff _ s t).1 hexec
  exact ⟨coreEffect_ctx (.encStep rt) s, hout, encStepCore_rcv rt s, encStepCore_dec rt s⟩

theorem encTransition_results (s : State) : (encTransition s).1.results = s.results := by
  rw [encTransition_portFields]

/-- A STEP with operand 0 outside Idle pays one entry and goes on, or ends the transmission. -/
theorem exec_encStep_of_busy {s : State} (hctx : s.ctx = .poll) (hinv : EncInv s.enc) (hbusy : s.enc.status ≠ .idle) :
    (∃ t x, exec (.encStep 0) s = .next t ∧ EncFrame s t ∧ EncInv t.enc ∧ t.enc.status ≠ .idle ∧
      remainingPulses s.enc = x :: remainingPulses t.enc ∧ t.trace = s.trace ++ [x] ∧
      t.results = s.results ++ [⟨true, 2⟩]) ∨
    (∃ t, exec (.encStep 0) s = .next t ∧ Transmitted s 0 t ∧ remainingPulses s.enc = [.stop]) := by
  have hinv' := encTransition_encInv (s := s.encRecord 0) hinv
  have hresults := encTransition_results (s.encRecord 0)
  rcases encTransition_of_busy (s := s.encRecord 0) hinv hbusy with
    ⟨t, x, ht, howed, htrace, hbusy', hout⟩ | ⟨ht, howed, hrepeat⟩
  · rw [ht] at hinv' hresults
    have hexec := exec_encStep_of_transition hctx (.inr rfl) ht
    exact .inl ⟨_, x, hexec, encFrame_of_exec hexec hout, hinv', hbusy', howed, htrace, congrArg (· ++ [_]) hresults⟩
  · have hexec := exec_encStep_of_transition hctx (.inr rfl) ht
    refine .inr ⟨_, hexec, ⟨encFrame_of_exec hexec rfl, ?_, rfl, rfl, hrepeat, rfl, ?_⟩, howed⟩
    · exact congrArg (s.trace ++ ·) howed.symm
    · exact congrArg (· ++ [_]) (List.append_nil s.results).symm

theorem remainingPulses_ne_nil {s : State} (hinv : EncInv s.enc) (hbusy : s.enc.status ≠ .idle) :
    remainingPulses s.enc ≠ [] := by
  rcases encTransition_of_busy hinv hbusy with ⟨t, x, -, howed, -⟩ | ⟨-, howed, -⟩ <;> simp [howed]

/-- From a busy encoder as many STEPs as entries are owed end the transmission. -/
theorem execAll_encStep_of_busy {n : Nat} {s : State} (hctx : s.ctx = .poll) (hinv : EncInv s.enc)
    (hbusy : s.enc.status ≠ .idle) (hlen : (remainingPulses s.enc).length = n + 1) :
    ∃ t, execAll (List.replicate (n + 1) (.encStep 0)) s = .next t ∧ Transmitted s n t := by
  induction n generalizing s with
  | zero =>
    rcases exec_encStep_of_busy hctx hinv hbusy with ⟨t, x, -, -, hinv', hbusy', howed, -, -⟩ | ⟨t, hexec, hend, -⟩
    · have hnil : remainingPulses t.enc = [] := by simpa [howed] using hlen
      exact absurd hnil (remainingPulses_ne_nil hinv' hbusy')
    · exact ⟨t, execAll_cons_of_next hexec [], hend⟩
  | succ n ih =>
    rcases exec_encStep_of_busy hctx hinv hbusy with
      ⟨t, x, hexec, hframe, hinv', hbusy', howed, htrace, hresults⟩ | ⟨t, -, -, howed⟩
    · obtain ⟨u, hrun, hend⟩ := ih (hframe.ctx.trans hctx) hinv' hbusy' (by simpa [howed] using hlen)
      refine ⟨u, (execAll_cons_of_next hexec _).trans hrun, ⟨hframe.trans hend.frame, ?_, hend.status,
        hend.messageKind, hend.repeatCount, hend.outMode, ?_⟩⟩
      · rw [hend.trace, htrace, howed, List.append_assoc]
        rfl
      · rw [hend.results, hresults, List.replicate_succ]
        simp
    · simp [howed] at hlen


theorem packetPulses_length (p : Packet) (r : Nat) : (packetPulses p r).length = 71 + 4 * r := by
  have hcommand : (commandPulses p).length = 67 := rfl
  have hkeypress : keypressPulses.length = 3 := rfl
  have hrepeats : (List.replicate r repeatPulses).flatten.length = 4 * r := by
    simp [repeatPulses, hkeypress, Nat.mul_comm]
  rw [packetPulses, List.length_append, List.length_append, List.length_append, hcommand, hkeypress, hrepeats]
  rfl

/-- The state after ENC.STEP has started packet `p` from Idle (R136). -/
def State.startPacket (s : State) (rt : Ticks) (p : Packet) (rest : List Packet) : State :=
  { s with
    out := rest
    enc := { s.enc with
      status := .leadBurst, messageKind := .command, remainingTicks := rt, currentByte := 0, pendingBitCount := 8,
      packetBuffer := p }
    outMode := .burst
    countdown := 342
    trace := s.trace ++ [.burst 342]
    results := s.results ++ [⟨true, 1⟩] }

section
variable (rt : Ticks) {s : State} {p : Packet} {rest : List Packet}

theorem startPacket_encInv : EncInv (s.startPacket rt p rest).enc := (encInv_iff _).2 (.inl ⟨rfl, rfl, rfl⟩)

/-- The packet's trace is the lead burst and what the started packet owes. -/
theorem burst_cons_remainingPulses_startPacket :
    .burst 342 :: remainingPulses (s.startPacket rt p rest).enc = packetTrace p s.enc.repeatCount.toNat :=
  (packetTrace_eq p s.enc.repeatCount.toNat).symm

theorem remainingPulses_startPacket_length :
    (remainingPulses (s.startPacket rt p rest).enc).length = 70 + 4 * s.enc.repeatCount.toNat + 1 := by
  have h := congrArg List.length (burst_cons_remainingPulses_startPacket rt (s := s) (p := p) (rest := rest))
  simp only [packetTrace, List.length_append, packetPulses_length, List.length_cons, List.length_nil] at h
  omega

/-- The STEPs that carry OUT's oldest packet from Idle to Ended (R148). -/
theorem execAll_encStep_of_idle {r : Nat} (hctx : s.ctx = .poll) (hidle : s.enc.status = .idle)
    (hout : s.out = p :: rest) (hr : r = s.enc.repeatCount.toNat) :
    ∃ t, execAll (.encStep rt :: List.replicate (71 + 4 * r) (.encStep 0)) s = .next t ∧
      Transmitted (s.startPacket rt p rest) (70 + 4 * r) t := by
  have hstart : exec (.encStep rt) s = .next (s.startPacket rt p rest) := stepInIdle.1 rt s p rest hctx hidle hout
  have hlen := remainingPulses_startPacket_length rt (s := s) (p := p) (rest := rest)
  rw [← hr] at hlen
  obtain ⟨t, hrun, hend⟩ := execAll_encStep_of_busy (s := s.startPacket rt p rest) hctx (startPacket_encInv rt) nofun hlen
  refine ⟨t, (execAll_cons_of_next hstart _).trans ?_, hend⟩
  rwa [show 71 + 4 * r = 70 + 4 * r + 1 by omega]

theorem Transmitted.packetTrace {n : Nat} {t : State} (h : Transmitted (s.startPacket rt p rest) n t) :
    t.trace = s.trace ++ packetTrace p s.enc.repeatCount.toNat := by
  rw [h.trace, ← burst_cons_remainingPulses_startPacket rt (rest := rest)]
  exact List.append_assoc ..

end

/-- Settles O41: the first STEP starts the packet, and each of the others pays one entry of the rest of its trace. -/
theorem traceOfOnePacket : Obligations.TraceOfOnePacket := by
  intro rt s p rest r hctx hidle hout hr
  obtain ⟨t, hrun, hend⟩ := execAll_encStep_of_idle rt hctx hidle hout hr
  refine ⟨t, hrun, hr ▸ hend.packetTrace, packetPulses_length p r, hend.status, hend.messageKind, hend.repeatCount,
    hend.frame.out, hend.outMode, hend.results⟩

end Sys2Proof.Machine

/-! SUPPORT. The queue operations and the queries as whole answers (40_queue.md R110 to R124, 41_encoder.md R131 to R133), the order
in which a queue delivers (20_memory.md R71), and the statements O20 to O24, O26, O28 and O29 assembled from them. -/

namespace Sys2Proof.Machine

/-! ### One operation, by its effect and its answer -/

theorem exec_of_coreEffect {i : Instr} {s e : State} {r : Result} (hrule : (ctxRuleOf i).allows s.ctx = true)
    (heffect : coreEffect i s = e) (hanswer : coreAnswer i s = r) :
    exec i s = .next { e with results := e.results ++ [r] } := by
  rw [exec_next_iff, heffect, hanswer]
  exact ⟨hrule, rfl⟩

/-- A TryWrite by the queue's length (R110). -/
theorem tryWrite_eq {α : Type} {sh : QueueShape} (hpos : 0 < sh.esz) (q : List α) (e : α) :
    tryWrite sh q e = if q.length < sh.cap then (true, q ++ [e]) else (false, q) := by
  simp only [← qHasRoom_iff sh q hpos]
  rfl

/-- An operation that puts TryWrite's queue back in its place and answers whether it wrote. -/
theorem exec_tryWrite {α : Type} {i : Instr} {s : State} {sh : QueueShape} {q : List α} {e : α} {put : List α → State}
    (hpos : 0 < sh.esz) (hput : put q = s) (hrule : (ctxRuleOf i).allows s.ctx = true)
    (heffect : coreEffect i s = put (tryWrite sh q e).2) (hanswer : coreAnswer i s = ⟨(tryWrite sh q e).1, 0⟩) :
    exec i s =
      if q.length < sh.cap then
        .next { put (q ++ [e]) with results := (put (q ++ [e])).results ++ [⟨true, 0⟩] }
      else .next { s with results := s.results ++ [⟨false, 0⟩] } := by
  rw [tryWrite_eq hpos] at heffect hanswer
  by_cases hroom : q.length < sh.cap
  · rw [if_pos hroom] at heffect hanswer ⊢
    exact exec_of_coreEffect hrule heffect hanswer
  · rw [if_neg hroom] at heffect hanswer ⊢
    exact exec_of_coreEffect hrule (heffect.trans hput) hanswer

/-! ### The statements about one operation -/

/-- Settles O21: each is a TryWrite into its queue, from the one context its row allows. -/
theorem queueWrites : Obligations.QueueWrites := by
  refine ⟨fun p s hctx => ⟨0, ?_⟩, fun e s hctx => ⟨0, ?_⟩, fun c s hctx => ⟨0, ?_⟩⟩
  · have hrule : (ctxRuleOf (.outTrywrite p)).allows s.ctx = true := ctxRuleOf_allows_of_poll hctx rfl
    exact exec_tryWrite (sh := Config.outShape) (put := s.withOut) (by decide) rfl hrule rfl rfl
  · have hrule : (ctxRuleOf (.capTrywrite e)).allows s.ctx = true := ctxRuleOf_allows_of_isr hctx rfl
    exact exec_tryWrite (sh := Config.capShape) (put := s.withCap) (by decide) rfl hrule rfl rfl
  · have hrule : (ctxRuleOf (.rcvTrywrite c)).allows s.ctx = true := ctxRuleOf_allows_of_poll hctx rfl
    exact exec_tryWrite (sh := Config.rcvShape) (put := s.withRcv) (by decide) rfl hrule rfl rfl

/-- Settles O29: the submitted packet goes through the TryWrite of OUT. -/
theorem submitBuildsThePacket : Obligations.SubmitBuildsThePacket := fun c _ hctx =>
  ⟨0, exec_tryWrite (sh := Config.outShape) (e := packetOfCommand c) (put := State.withOut _) (by decide) rfl
    (ctxRuleOf_allows_of_poll hctx rfl) rfl rfl⟩

/-- Settles O22: a read's effect is the queue's tail and its answer the head, laid out. -/
theorem queueReadsTakeTheOldest : Obligations.QueueReadsTakeTheOldest := by
  refine ⟨fun s p rest hctx hout => ?_, fun s e rest hctx hcap => ?_, fun s c rest hctx hrcv => ⟨?_, ?_⟩⟩
  · exact exec_of_coreEffect (e := s.withOut rest) (ctxRuleOf_allows_of_poll hctx rfl) (by simp [coreEffect, hout])
      (by simp [coreAnswer, hout])
  · exact exec_of_coreEffect (e := s.withCap rest) (ctxRuleOf_allows_of_poll hctx rfl) (by simp [coreEffect, hcap])
      (by simp [coreAnswer, hcap])
  all_goals
    exact exec_of_coreEffect (e := s.withRcv rest) (ctxRuleOf_allows_of_poll hctx rfl) (by simp [coreEffect, hrcv])
      (by simp [coreAnswer, hrcv])

/-- Settles O23: the tail of an empty queue is the same empty queue. -/
theorem failedReadsChangeNothing : Obligations.FailedReadsChangeNothing := by
  refine fun s hctx => ⟨fun hout => ⟨0, ?_⟩, fun hcap => ⟨0, ?_⟩, fun hrcv => ⟨0, ?_⟩, fun hrcv => ⟨0, ?_⟩⟩
  · exact exec_of_coreEffect (e := s) (ctxRuleOf_allows_of_poll hctx rfl)
      (by rw [coreEffect, hout, List.tail_nil, ← hout]; rfl) (by simp [coreAnswer, hout])
  · exact exec_of_coreEffect (e := s) (ctxRuleOf_allows_of_poll hctx rfl)
      (by rw [coreEffect, hcap, List.tail_nil, ← hcap]; rfl) (by simp [coreAnswer, hcap])
  all_goals
    exact exec_of_coreEffect (e := s) (ctxRuleOf_allows_of_poll hctx rfl)
      (by rw [coreEffect, hrcv, List.tail_nil, ← hrcv]; rfl) (by simp [coreAnswer, hrcv])

/-- Settles O24: the rows of the three CLEARs allow both contexts. -/
theorem queueClears : Obligations.QueueClears := fun s =>
  have hboth : CtxRule.both.allows s.ctx = true := CtxRule.both_allows s.ctx
  ⟨⟨0, exec_of_coreEffect (e := s.withOut []) hboth rfl rfl⟩, ⟨0, exec_of_coreEffect (e := s.withCap []) hboth rfl rfl⟩,
    ⟨0, exec_of_coreEffect (e := s.withRcv []) hboth rfl rfl⟩⟩

/-- Settles O28: the three queries have no effect, and their answers are their questions. -/
theorem queriesAnswer : Obligations.QueriesAnswer := fun _ hctx =>
  ⟨⟨0, exec_encCanaccept_of_poll hctx⟩, ⟨0, exec_of_coreEffect_eq_self (ctxRuleOf_allows_of_poll hctx rfl) rfl⟩,
    ⟨0, exec_of_coreEffect_eq_self (ctxRuleOf_allows_of_poll hctx rfl) rfl⟩⟩

/-- An operation without an effect, whose answer does not read the answers before, answers the same when it is asked again. -/
theorem exec_twice_of_query {i : Instr} {s : State} (hrule : (ctxRuleOf i).allows s.ctx = true)
    (heffect : ∀ u, coreEffect i u = u)
    (hanswer : ∀ rs, coreAnswer i { s with results := rs } = coreAnswer i s) :
    exec i s = .next { s with results := s.results ++ [coreAnswer i s] } ∧
      exec i { s with results := s.results ++ [coreAnswer i s] } =
        .next { s with results := s.results ++ [coreAnswer i s] ++ [coreAnswer i s] } := by
  refine ⟨exec_of_coreEffect_eq_self hrule (heffect s), ?_⟩
  exact exec_of_coreEffect (s := { s with results := s.results ++ [coreAnswer i s] }) hrule (heffect _) (hanswer _)

/-- Settles O20: the queries are without effect and ask only OUT, CAP, RCV and the two machines. -/
theorem queriesChangeNothing : Obligations.QueriesChangeNothing := by
  refine ⟨fun i s hi => ⟨coreAnswer i s, ?_⟩,
    fun i s hi hctx => ⟨(coreAnswer i s).ok, (coreAnswer i s).dout, (coreAnswer i s).dout, ?_⟩⟩
  · fin_cases hi <;> exact exec_twice_of_query (CtxRule.both_allows s.ctx) (fun _ => rfl) fun _ => rfl
  · fin_cases hi <;> exact exec_twice_of_query (ctxRuleOf_allows_of_poll hctx rfl) (fun _ => rfl) fun _ => rfl

/-! ### First in, first out (R71) -/

@[simp] theorem answeredOk_respond (s : State) (ok : Bool) (d : Word) : answeredOk (s.respond ok d) = ok := by
  simp [answeredOk]

@[simp] theorem answeredWord_respond (s : State) (ok : Bool) (d : Word) : answeredWord (s.respond ok d) = d := by
  simp [answeredWord]

/-- What was written since the last CLEAR is what was read since, followed by what the queue holds. -/
def FifoRecord.Accounts {α : Type} (h : FifoRecord α) (q : List α) : Prop := h.written = h.readOut ++ q

section
variable {α : Type} {h : FifoRecord α} {q : List α}

theorem FifoRecord.Accounts.wrote (hq : h.Accounts q) (ok : Bool) (e : α) :
    (h.wrote ok e).Accounts (if ok then q ++ [e] else q) := by
  cases ok
  · exact hq
  · rw [Accounts] at hq
    simp [Accounts, FifoRecord.wrote, hq]

theorem FifoRecord.Accounts.tryWrote (hq : h.Accounts q) (sh : QueueShape) (e : α) :
    (h.wrote (tryWrite sh q e).1 e).Accounts (tryWrite sh q e).2 := by
  rcases tryWrite_cases sh q e with ⟨-, hw⟩ | ⟨-, hw⟩ <;> rw [hw]
  · exact hq.wrote true e
  · exact hq.wrote false e

theorem FifoRecord.Accounts.took {e : α} (hq : h.Accounts (e :: q)) : (h.took true e).Accounts q := by
  simpa [Accounts, FifoRecord.took] using hq

/-- A read whose answer lays the oldest element out, or is 0 on an empty queue, takes that element back from DOUT. -/
theorem FifoRecord.Accounts.tryRead {read : Word → α} {layout : α → Word} {a : Result} (hq : h.Accounts q)
    (read_layout : ∀ e, read (layout e) = e) (hnil : q = [] → a.ok = false)
    (hcons : ∀ e rest, q = e :: rest → a = ⟨true, layout e⟩) :
    (h.took a.ok (read a.dout)).Accounts q.tail := by
  cases q with
  | nil =>
    rw [hnil rfl]
    exact hq
  | cons e rest =>
    rw [hcons e rest rfl, read_layout]
    exact hq.took

end

theorem StepResult.code_eq_started_iff (r : StepResult) : (r.code == StepResult.started.code) = decide (r = .started) := by
  cases r <;> decide

/-- ENC.STEP answers Started exactly when it takes OUT's oldest packet into its buffer (R136). -/
theorem encStepCore_dequeues (rt : Ticks) (s : State) :
    ((encStepCore rt s).2 = .started ∧ s.out = (encStepCore rt s).1.enc.packetBuffer :: (encStepCore rt s).1.out) ∨
    ((encStepCore rt s).2 ≠ .started ∧ (encStepCore rt s).1.out = s.out) := by
  rcases encStepCore_cases rt s with ⟨-, -, h⟩ | ⟨-, h⟩ <;> rw [h]
  · exact .inr ⟨nofun, rfl⟩
  · rcases encTransition_shape (s.encRecord rt) with
      ⟨-, -, ht⟩ | ⟨q, e, n, -, -, ⟨ht, -, hout⟩ | ⟨ht, -, rfl⟩ | ⟨ht, -, rfl⟩ | ⟨ht, -, rfl⟩⟩ <;>
      rw [← State.encRecord, ht]
    · exact .inr ⟨nofun, rfl⟩
    · exact .inl ⟨rfl, hout⟩
    all_goals exact .inr ⟨nofun, rfl⟩

theorem FifoRecord.Accounts.encStep {h : FifoRecord Packet} (rt : Ticks) {s : State} (hq : h.Accounts s.out) :
    (h.took ((encStepCore rt s).2.code == StepResult.started.code)
      (encStepCore rt s).1.enc.packetBuffer).Accounts (encStepCore rt s).1.out := by
  rw [StepResult.code_eq_started_iff]
  rcases encStepCore_dequeues rt s with ⟨hr, hout⟩ | ⟨hr, hout⟩
  · rw [hout] at hq
    rw [decide_eq_true hr]
    exact hq.took
  · rw [decide_eq_false hr, hout]
    exact hq

/-- RCV after an event: the held command is delivered by a burst in Keypress, when there is room (R192, R194). -/
theorem decOnEventCore_rcv (e : PulseEvent) (s : State) :
    (decOnEventCore e s).rcv =
      if s.dec.messageKind == .keypress && e.isBurst && decide (s.rcv.length < 8) then s.rcv ++ [s.dec.decodedCommand]
      else s.rcv := by
  cases hkind : s.dec.messageKind with
  | none => rw [decOnEventCore_of_none e hkind]; rfl
  | command => rw [decOnEventCore_of_command e hkind]; rfl
  | keypress =>
    cases hburst : e.isBurst with
    | false => rw [decOnEventCore_of_keypress_pause hkind hburst]; rfl
    | true => rw [decOnEventCore_of_keypress_burst hkind hburst]; simp

/-- The state `exec` answers with: the operation's effect, then its answer. -/
def answered (i : Instr) (s : State) : State := (coreEffect i s).respond (coreAnswer i s).ok (coreAnswer i s).dout

@[simp] theorem answeredOk_answered (i : Instr) (s : State) : answeredOk (answered i s) = (coreAnswer i s).ok :=
  answeredOk_respond ..

@[simp] theorem answeredWord_answered (i : Instr) (s : State) : answeredWord (answered i s) = (coreAnswer i s).dout :=
  answeredWord_respond ..

theorem outRecord_accounts (i : Instr) {s : State} {h : FifoRecord Packet} (hq : h.Accounts s.out) :
    (outRecord h i (answered i s)).Accounts (coreEffect i s).out := by
  cases i with
  | outTrywrite p =>
    rw [outRecord, answeredOk_answered]
    exact hq.tryWrote Config.outShape p
  | encSubmit c =>
    rw [outRecord, answeredOk_answered]
    exact hq.tryWrote Config.outShape (packetOfCommand c)
  | outTryread =>
    rw [outRecord, answeredOk_answered, answeredWord_answered]
    exact hq.tryRead packetOfWord_wordOfPacket (fun hout => by simp [coreAnswer, hout])
      fun p rest hout => by simp [coreAnswer, hout]
  | encStep rt =>
    rw [outRecord, answeredWord_answered]
    exact hq.encStep rt
  | outClear => rfl
  | decOnevent e => rwa [coreEffect, decOnEventCore_out]
  | _ => exact hq

theorem capRecord_accounts (i : Instr) {s : State} {h : FifoRecord PulseEvent} (hq : h.Accounts s.cap) :
    (capRecord h i (answered i s)).Accounts (coreEffect i s).cap := by
  cases i with
  | capTrywrite e =>
    rw [capRecord, answeredOk_answered]
    exact hq.tryWrote Config.capShape e
  | capTryread =>
    rw [capRecord, answeredOk_answered, answeredWord_answered]
    exact hq.tryRead eventOfWord_wordOfEvent (fun hcap => by simp [coreAnswer, hcap])
      fun e rest hcap => by simp [coreAnswer, hcap]
  | capClear => rfl
  | encStep rt => rwa [coreEffect, encStepCore_cap]
  | decOnevent e => rwa [coreEffect, decOnEventCore_cap]
  | _ => exact hq

theorem rcvRecord_accounts (i : Instr) {s : State} {h : FifoRecord Command} (hq : h.Accounts s.rcv) :
    (rcvRecord h s i (answered i s)).Accounts (coreEffect i s).rcv := by
  cases i with
  | rcvTrywrite c =>
    rw [rcvRecord, answeredOk_answered]
    exact hq.tryWrote Config.rcvShape c
  | rcvTryread | decTake =>
    rw [rcvRecord, answeredOk_answered, answeredWord_answered]
    exact hq.tryRead commandOfWord_wordOfCommand (fun hrcv => by simp [coreAnswer, hrcv])
      fun c rest hrcv => by simp [coreAnswer, hrcv]
  | decOnevent e =>
    rw [rcvRecord, coreEffect, decOnEventCore_rcv]
    exact hq.wrote _ s.dec.decodedCommand
  | rcvClear => rfl
  | encStep rt => rwa [coreEffect, encStepCore_rcv]
  | _ => exact hq

/-- Settles O26: each queue's record accounts for its queue after any operation, one lemma per queue. -/
theorem queuesAreFirstInFirstOut : Obligations.QueuesAreFirstInFirstOut := by
  intro i s t hexec
  obtain ⟨-, rfl⟩ := (exec_next_iff i s t).1 hexec
  exact ⟨fun _ => outRecord_accounts i, fun _ => capRecord_accounts i, fun _ => rcvRecord_accounts i⟩

end Sys2Proof.Machine

/-! SUPPORT. The decoder's exits and deliveries (42_decoder.md section 4), the total duration (R175), a byte's eight bits (R188), the
duties' mutual exclusion (70_reset_and_hazards.md R253), and the statements O44, O48, O51, O52 and O57 assembled from them. -/

namespace Sys2Proof.Machine

/-! ### The total duration (R170, R175) -/

/-- Settles O44: two 15-bit lengths add up within 16 bits, and a pause of 0x7FFF alone is past every window. -/
theorem totalDurationIsExact : Obligations.TotalDurationIsExact := by
  refine ⟨fun a b => ?_, fun a => ?_⟩
  · have ha := a.isLt
    have hb := b.isLt
    rw [totalDuration_toNat]
    exact ⟨rfl, by omega⟩
  · have hsentinel : (0x7FFF : PulseLength).toNat = 0x7FFF := rfl
    rw [totalDuration_toNat, hsentinel, classify_eq_invalidPulse_iff]
    omega

/-! ### A byte's eight bits (R187, R188) -/

/-- Settles O48: the sixteen events are the byte's, answered as one run. -/
theorem eightBitsAssembleAByte : Obligations.EightBitsAssembleAByte := by
  intro b s hctx hkind hbits hbyte
  have hevents : ((List.range 8).flatMap fun m =>
      [Instr.decOnevent (burst 22), .decOnevent (pause (if b.getLsbD m then 64 else 21))]) =
      (lowBitsEvents b 8).map Instr.decOnevent := rfl
  obtain ⟨rs, hrun⟩ := execAll_decOnevent (lowBitsEvents b 8) hctx
  have hbyteRun := decRun_byteEvents s b hkind hbits hbyte
  rw [show s.withDec s.dec = s from rfl] at hbyteRun
  rw [hbyteRun] at hrun
  rw [hevents]
  exact ⟨_, hrun, rfl, rfl⟩

/-! ### How the decoder leaves Command (R198) -/

theorem shiftBit_messageKind (v : Bool) (d : ReceiverState) : (shiftBit v d).messageKind = d.messageKind := by
  unfold shiftBit
  split <;> rfl

/-- A pause in Command leaves it as a KeypressStart, or as an InvalidPulse once a byte is complete. -/
theorem pauseInCommand_messageKind {l : PulseLength} {d : ReceiverState} (hkind : d.messageKind = .command)
    (hleft : (pauseInCommand l d).messageKind ≠ .command) :
    (classify (d.lastBurstLength.toNat + l.toNat) = .keypressStart ∧ (pauseInCommand l d).messageKind = .keypress) ∨
    (classify (d.lastBurstLength.toNat + l.toNat) = .invalidPulse ∧ 0 < d.byteIndex.toNat ∧
      (pauseInCommand l d).messageKind = .none) := by
  cases hclass : classify (d.lastBurstLength.toNat + l.toNat) with
  | bitLow =>
    simp only [pauseInCommand, totalDuration_toNat, hclass, shiftBit_messageKind] at hleft
    exact absurd hkind hleft
  | bitHigh =>
    simp only [pauseInCommand, totalDuration_toNat, hclass, shiftBit_messageKind] at hleft
    exact absurd hkind hleft
  | commandStart =>
    rw [pauseInCommand_of_commandStart hclass] at hleft
    exact absurd hkind hleft
  | keypressStart =>
    rw [pauseInCommand_of_keypressStart hclass]
    exact .inl ⟨rfl, rfl⟩
  | invalidPulse =>
    rw [pauseInCommand_of_invalidPulse hclass, resynchronise] at hleft ⊢
    split_ifs at hleft ⊢ with hbyte
    · exact .inr ⟨rfl, hbyte, rfl⟩
    · exact absurd hkind hleft

/-- Settles O51: only DEC.RESET and DEC.ONEVENT write the decoder; a burst leaves Command once four bytes are complete, and a
pause as `pauseInCommand_messageKind` says. -/
theorem decoderLeavesCommandOnlyBy : Obligations.DecoderLeavesCommandOnlyBy := by
  intro i s t hexec hkind hleft
  obtain ⟨-, rfl⟩ := (exec_next_iff i s t).1 hexec
  rw [State.respond_dec] at *
  by_cases hreset : i = .decReset
  · exact .inl hreset
  by_cases hevent : ∃ e, i = .decOnevent e
  · obtain ⟨e, rfl⟩ := hevent
    refine .inr ⟨e, rfl, ?_⟩
    rw [coreEffect, decOnEventCore_of_command e hkind, State.withDec_dec] at *
    cases hburst : e.isBurst with
    | true =>
      rw [eventInCommand_of_burst _ hburst, burstInCommand_eq] at *
      split_ifs at * with hbyte
      · exact absurd hkind hleft
      · exact .inl ⟨rfl, Nat.le_of_not_lt hbyte, rfl⟩
    | false =>
      rw [eventInCommand_of_pause _ hburst] at *
      exact .inr ((pauseInCommand_messageKind hkind hleft).imp (⟨rfl, ·⟩) (⟨rfl, ·⟩))
  · rw [coreEffect_dec_eq i s hreset (not_exists.1 hevent)] at hleft
    exact absurd hkind hleft

/-! ### How a command enters RCV (R192, R196, R224) -/

/-- RCV grows by a written command or by a delivery, and by nothing else. -/
theorem rcv_grows {i : Instr} {s : State} (hgrows : s.rcv.length < (coreEffect i s).rcv.length) :
    (∃ c, i = .rcvTrywrite c ∧ (coreEffect i s).rcv = s.rcv ++ [c]) ∨
    (∃ e, i = .decOnevent e ∧ e.isBurst = true ∧ s.dec.messageKind = .keypress ∧
      (coreEffect i s).rcv = s.rcv ++ [s.dec.decodedCommand]) := by
  cases i with
  | rcvTrywrite c =>
    rw [coreEffect] at hgrows ⊢
    rcases tryWrite_cases Config.rcvShape s.rcv c with ⟨-, hw⟩ | ⟨-, hw⟩ <;> rw [hw] at hgrows ⊢
    · exact .inl ⟨c, rfl, rfl⟩
    · exact absurd hgrows (Nat.lt_irrefl s.rcv.length)
  | decOnevent e =>
    rw [coreEffect, decOnEventCore_rcv] at hgrows ⊢
    split_ifs at hgrows ⊢ with hdeliver
    · simp only [Bool.and_eq_true, beq_iff_eq] at hdeliver
      obtain ⟨⟨hkind, hburst⟩, -⟩ := hdeliver
      exact .inr ⟨e, rfl, hburst, hkind, rfl⟩
    · exact absurd hgrows (Nat.lt_irrefl s.rcv.length)
  | rcvTryread | decTake =>
    have hshorter : s.rcv.tail.length ≤ s.rcv.length := by simp
    exact absurd hgrows (Nat.not_lt_of_le hshorter)
  | rcvClear => exact absurd hgrows (Nat.not_lt_zero s.rcv.length)
  | encStep rt =>
    rw [coreEffect, encStepCore_rcv] at hgrows
    exact absurd hgrows (Nat.lt_irrefl s.rcv.length)
  | _ => exact absurd hgrows (Nat.lt_irrefl s.rcv.length)

theorem decOnEventCore_rcv_appends (e : PulseEvent) (s : State) : ∃ more, (decOnEventCore e s).rcv = s.rcv ++ more := by
  rw [decOnEventCore_rcv]
  split
  · exact ⟨_, rfl⟩
  · exact ⟨[], (List.append_nil s.rcv).symm⟩

/-- Settles O52: the two ways RCV grows, and that a reset leaves it and an event appends to it. -/
theorem deliveryOnlyAfterAKeypress : Obligations.DeliveryOnlyAfterAKeypress := by
  intro i s t hexec
  obtain ⟨-, rfl⟩ := (exec_next_iff i s t).1 hexec
  refine ⟨rcv_grows, ?_⟩
  rintro (rfl | rfl | ⟨e, rfl⟩)
  · exact ⟨[], (List.append_nil s.rcv).symm⟩
  · exact ⟨[], (List.append_nil s.rcv).symm⟩
  · exact decOnEventCore_rcv_appends e s

/-! ### Mutual exclusion (R253) -/

/-- Settles O57: ENC.STEP's duty is an idle decoder, which it does not write, and DEC.ONEVENT's an idle encoder; a reset makes its
machine idle, and nothing else writes either. -/
theorem dutiesKeepOneMachineIdle : Obligations.DutiesKeepOneMachineIdle := by
  intro d i s t hidle hduty hexec
  obtain ⟨-, rfl⟩ := (exec_next_iff i s t).1 hexec
  show NotBothBusy (coreEffect i s)
  cases i with
  | encReset => exact .inl rfl
  | decReset => exact .inr rfl
  | encStep rt =>
    simp only [keepsDuties, Bool.and_eq_true, beq_iff_eq] at hduty
    obtain ⟨hdec, -⟩ := hduty
    exact .inr (by rwa [coreEffect, encStepCore_dec])
  | decOnevent e =>
    simp only [keepsDuties, Bool.and_eq_true, beq_iff_eq] at hduty
    obtain ⟨⟨henc, -⟩, -⟩ := hduty
    exact .inl (by rwa [coreEffect, decOnEventCore_enc])
  | _ => exact hidle

end Sys2Proof.Machine

/-! SUPPORT. The two machines' resets (R251), ticks in a row (43_timer.md R210), a position outside the packet (log entry 9), how
long a transmission takes (41_encoder.md R150), and the statements O11, O35, O42 and O56 assembled from them. -/

namespace Sys2Proof.Machine

/-! ### The three resets (R251) -/

/-- Settles O11: each reset operation's effect is the one field its unit owns, and the port is empty after a system reset. -/
theorem threeResets : Obligations.ThreeResets :=
  ⟨systemReset_eq_reset,
    fun s hctx =>
      ⟨0, exec_of_coreEffect (e := s.withEnc (encForceIdle s.enc)) (ctxRuleOf_allows_of_poll hctx rfl) rfl rfl⟩,
    fun s hctx =>
      ⟨0, exec_of_coreEffect (e := s.withDec ReceiverState.reset) (ctxRuleOf_allows_of_poll hctx rfl) rfl rfl⟩,
    step_of_port_nil rfl⟩

/-! ### A position the packet does not have (log entry 9) -/

/-- Settles O35: the transition out of DataBitBurst has one form at every position; only its bit and its next position differ. -/
theorem dataBitBurstOutsideThePacket : Obligations.DataBitBurstOutsideThePacket := by
  intro s hctx hst _
  refine ⟨if encDataBit (s.encRecord 0).enc then 64 else 21, (encAdvanceBit (s.encRecord 0).enc).currentByte,
    (encAdvanceBit (s.encRecord 0).enc).pendingBitCount, ?_,
    exec_encStep_of_transition hctx (.inr rfl) (encTransition_dataBitBurst (s.encRecord 0) hst)⟩
  split
  · exact .inr rfl
  · exact .inl rfl

/-! ### Ticks in a row (R210) -/

/-- Settles O56: induction on the ticks; each takes one from the countdown and writes nothing else but its answer. -/
theorem ticksRunTheCountdown : Obligations.TicksRunTheCountdown := by
  intro k
  induction k with
  | zero => exact fun s _ => ⟨s, rfl, rfl, rfl, rfl⟩
  | succ k ih =>
    intro s hctx
    obtain ⟨t, hrun, hcount, hframe, hanswers⟩ :=
      ih ((s.withCountdown (countdownNext s.countdown)).answerWord (wordOfTicks (countdownNext s.countdown))) hctx
    refine ⟨t, (execAll_cons_of_next (exec_tmrTick_of_isr hctx) _).trans hrun, ?_, hframe, ?_⟩
    · rw [hcount, answerWord_eq, State.withCountdown_countdown, countdownNext_toNat]
      omega
    · rw [hanswers, answerWord_eq, List.length_append, List.length_singleton, State.withCountdown_results,
        Nat.add_right_comm, Nat.add_assoc]

/-! ### The duration of a transmission (R150) -/

/-- How many bits of a byte are one. -/
def oneBits (b : Byte) : Nat := (List.range 8).countP b.getLsbD

/-- A byte and its complement have 8 one bits together. -/
theorem oneBits_add_oneBits_not (b : Byte) : oneBits b + oneBits (~~~b) = 8 := by
  have hnot : oneBits (~~~b) = (List.range 8).countP fun k => ¬ b.getLsbD k := by
    apply List.countP_congr
    intro k hk
    simp [List.mem_range.1 hk]
  rw [hnot]
  exact (List.length_eq_countP_add_countP b.getLsbD).symm

/-- The wire bits of a packet are its four bytes' (R63). -/
theorem wireBit_countP (p : Packet) :
    (List.range 32).countP (wireBit p) = oneBits p.b0 + oneBits p.b1 + oneBits p.b2 + oneBits p.b3 := by
  have hbytes : List.range 32 = List.range 8 ++ (List.range 8).map (8 + ·) ++ (List.range 8).map (16 + ·) ++
      (List.range 8).map (24 + ·) := rfl
  rw [hbytes, List.countP_append, List.countP_append, List.countP_append, List.countP_map, List.countP_map,
    List.countP_map]
  rfl

theorem traceTicks_append (xs ys : List TraceEntry) : traceTicks (xs ++ ys) = traceTicks xs + traceTicks ys := by
  simp [traceTicks]

/-- A zero bit takes 43 ticks and a one bit 86. -/
theorem traceTicks_dataBits (p : Packet) (ks : List Nat) :
    traceTicks (ks.flatMap (dataBitPulses p)) = 43 * ks.length + 43 * ks.countP (wireBit p) := by
  induction ks with
  | nil => rfl
  | cons k ks ih =>
    have hbit : traceTicks (dataBitPulses p k) = if wireBit p k then 86 else 43 := by
      unfold dataBitPulses
      split <;> rfl
    rw [List.flatMap_cons, traceTicks_append, ih, hbit, List.countP_cons, List.length_cons]
    split <;> omega

theorem traceTicks_commandPulses (p : Packet) :
    traceTicks (commandPulses p) = 1911 + 43 * (List.range 32).countP (wireBit p) := by
  have hlead : traceTicks [.burst 342, .pause 171] = 513 := rfl
  have htrail : traceTicks [.burst 22] = 22 := rfl
  rw [commandPulses, traceTicks_append, traceTicks_append, traceTicks_dataBits, List.length_range, hlead, htrail]
  omega

/-- Settles O42: the complements make 16 one bits, and the ticks depend on nothing else of the command. -/
theorem durationOfATransmission : Obligations.DurationOfATransmission := by
  intro c
  have hones : (List.range 32).countP (wireBit (packetOfCommand c)) = 16 := by
    have haddress := oneBits_add_oneBits_not c.address
    have hcode := oneBits_add_oneBits_not c.code
    rw [wireBit_countP]
    simp only [packetOfCommand, pkt]
    omega
  have hcommand : traceTicks (commandPulses (packetOfCommand c)) = 2599 := by rw [traceTicks_commandPulses, hones]
  have hrest : traceTicks ([.pause 1510] ++ keypressPulses) = 1957 := rfl
  refine ⟨List.countP_eq_length_filter.symm.trans hones, ?_, hcommand⟩
  rw [packetPulses, List.replicate_zero, List.flatten_nil, List.append_nil, List.append_assoc, traceTicks_append,
    hcommand, hrest]

end Sys2Proof.Machine

/-! SUPPORT. The round trip (42_decoder.md R194, R196, R199): a submitted command sent, its trace with any number of repeats
received, and the statements O54 and O58 assembled from the two. -/

namespace Sys2Proof.Machine

/-! ### A command sent -/

/-- From Idle with OUT empty, submitting a command and the STEPs of its packet append the packet's trace and leave the decoder
and RCV. -/
theorem execAll_submit_encStep (c : Command) {s : State} {r : Nat} (hctx : s.ctx = .poll) (hidle : s.enc.status = .idle)
    (hr : r = s.enc.repeatCount.toNat) (hout : s.out = []) :
    ∃ t, execAll (.encSubmit c :: List.replicate (72 + 4 * r) (.encStep 0)) s = .next t ∧
      t.trace = s.trace ++ packetTrace (packetOfCommand c) r ∧ t.ctx = .poll ∧ t.rcv = s.rcv ∧ t.dec = s.dec := by
  have hsubmit : exec (.encSubmit c) s =
      .next { s with out := [packetOfCommand c], results := s.results ++ [⟨true, 0⟩] } :=
    exec_of_coreEffect (e := s.withOut [packetOfCommand c]) (ctxRuleOf_allows_of_poll hctx rfl)
      (by rw [coreEffect, hout]; rfl) (by rw [coreAnswer, hout]; rfl)
  obtain ⟨t, hrun, hend⟩ := execAll_encStep_of_idle 0
    (s := { s with out := [packetOfCommand c], results := s.results ++ [⟨true, 0⟩] }) hctx hidle rfl hr
  refine ⟨t, (execAll_cons_of_next hsubmit _).trans ?_, ?_, hend.frame.ctx.trans hctx, hend.frame.rcv, hend.frame.dec⟩
  · rwa [show 72 + 4 * r = 71 + 4 * r + 1 by omega, List.replicate_succ]
  · rw [hr]
    exact hend.packetTrace

/-! ### A command delivered into RCV `n` times (R194) -/

/-- RCV after `n` deliveries of a command, as far as it has room. -/
def delivered (c : Command) (n : Nat) (q : List Command) : List Command := q ++ List.replicate (min (8 - q.length) n) c

theorem delivered_zero (c : Command) (q : List Command) : delivered c 0 q = q := by simp [delivered]

theorem delivered_succ (c : Command) (n : Nat) (q : List Command) :
    delivered c n (if q.length < 8 then q ++ [c] else q) = delivered c (n + 1) q := by
  split
  case isTrue hroom =>
    have hcount : min (8 - q.length) (n + 1) = min (8 - (q ++ [c]).length) n + 1 := by
      rw [List.length_append, List.length_singleton]
      omega
    rw [delivered, delivered, hcount, List.replicate_succ, List.append_assoc]
    rfl
  case isFalse hfull =>
    have hcount : 8 - q.length = 0 := by omega
    simp [delivered, hcount]

/-! ### A trace received (R196, R199) -/

/-- The decoder is idle and holds command `c`, and RCV is `q`. -/
def HoldsIdle (c : Command) (q : List Command) (s : State) : Prop :=
  s.dec.messageKind = .none ∧ s.dec.decodedCommand = c ∧ s.rcv = q

section
variable {c : Command} {q : List Command} {s : State} {l : PulseLength}

/-- A keypress message after a pause that resynchronises delivers the held command. -/
theorem HoldsIdle.keypressMessage (h : HoldsIdle c q s) (hl : 1359 ≤ l.toNat) :
    HoldsIdle c (if q.length < 8 then q ++ [c] else q) (decRun s (pause l :: traceEvents keypressPulses)) := by
  obtain ⟨hkind, rfl, rfl⟩ := h
  rw [decRun_keypressMessage s hkind hl]
  exact ⟨rfl, rfl, rfl⟩

theorem decOnEventCore_ignored {e : PulseEvent} (hkind : s.dec.messageKind = .none)
    (hshort : ¬ (e.isBurst = false ∧ 1359 ≤ e.length.toNat)) : decOnEventCore e s = s := by
  rw [decOnEventCore_of_none e hkind, eventInIdle_eq, if_neg hshort]
  rfl

/-- A keypress message after a shorter pause is not received at all. -/
theorem decRun_keypressMessage_short (hkind : s.dec.messageKind = .none) (hl : l.toNat < 1359) :
    decRun s (pause l :: traceEvents keypressPulses) = s := by
  have hevents : traceEvents keypressPulses = [burst 342, pause 83, burst 22] := rfl
  rw [hevents, decRun_cons, decOnEventCore_ignored hkind fun h => Nat.not_le_of_lt hl h.2, decRun_cons,
    decOnEventCore_ignored hkind (by decide), decRun_cons, decOnEventCore_ignored hkind (by decide), decRun_cons,
    decOnEventCore_ignored hkind (by decide), decRun_nil]

/-- `r` repeats with one pause between: all are received or none is. -/
theorem HoldsIdle.repeats (r : Nat) (h : HoldsIdle c q s) :
    HoldsIdle c (delivered c (if 1359 ≤ l.toNat then r else 0) q)
      (decRun s (List.replicate r (pause l :: traceEvents keypressPulses)).flatten) := by
  induction r generalizing s q with
  | zero =>
    rw [ite_self, delivered_zero]
    exact h
  | succ r ih =>
    rw [List.replicate_succ, List.flatten_cons, decRun_append]
    by_cases hl : 1359 ≤ l.toNat
    · have hrest := ih (h.keypressMessage hl)
      rw [if_pos hl] at hrest ⊢
      rwa [delivered_succ] at hrest
    · have hrest := ih h
      rw [if_neg hl] at hrest ⊢
      rwa [decRun_keypressMessage_short h.1 (Nat.lt_of_not_le hl)]

end

/-- The autorepeat pause as it is captured (R84, R211). -/
def autorepeatCaptured : PulseLength := (capturedEvent false Config.autorepeatPause.toNat).length

theorem autorepeatCaptured_resynchronises_iff : 1359 ≤ autorepeatCaptured.toNat ↔ 1359 ≤ Config.autorepeatPause.toNat := by
  rw [autorepeatCaptured, capturedEvent_length_toNat]
  omega

/-- The events of a packet's trace: its command message, its keypress message, and one keypress message for each repeat. -/
theorem traceEvents_packetTrace (p : Packet) (r : Nat) :
    traceEvents (packetTrace p r) =
      traceEvents (commandPulses p) ++ (pause 1510 :: traceEvents keypressPulses) ++
        (List.replicate r (pause autorepeatCaptured :: traceEvents keypressPulses)).flatten := by
  have hrepeats : traceEvents (List.replicate r repeatPulses).flatten =
      (List.replicate r (pause autorepeatCaptured :: traceEvents keypressPulses)).flatten := by
    rw [traceEvents, List.filterMap_flatten, List.map_replicate]
    rfl
  have hstop : traceEvents [.stop] = [] := rfl
  rw [packetTrace, packetPulses, traceEvents_append, traceEvents_append, traceEvents_append, traceEvents_append,
    hrepeats, hstop, List.append_nil, List.append_assoc (traceEvents (commandPulses p))]
  rfl

/-- A sync pause and a packet's trace deliver its 1st and 3rd byte, once and again for each repeat that is received. -/
theorem decRun_packetTrace (p : Packet) (r : Nat) {s : State} {l : PulseLength} (hkind : s.dec.messageKind = .none)
    (hl : 1359 ≤ l.toNat) :
    HoldsIdle (cmd p.b0 p.b2)
      (delivered (cmd p.b0 p.b2) (if 1359 ≤ Config.autorepeatPause.toNat then r + 1 else 1) s.rcv)
      (decRun s (pause l :: traceEvents (packetTrace p r))) := by
  have hcommand : HoldsIdle (cmd p.b0 p.b2) s.rcv (decRun s (pause l :: traceEvents (commandPulses p))) := by
    rw [decRun_commandMessage s p hkind hl]
    exact ⟨rfl, rfl, rfl⟩
  have hall := (hcommand.keypressMessage (l := 1510) (by decide)).repeats (l := autorepeatCaptured) r
  have hcount : (if 1359 ≤ autorepeatCaptured.toNat then r else 0) + 1 =
      if 1359 ≤ Config.autorepeatPause.toNat then r + 1 else 1 := by
    rw [apply_ite (· + 1)]
    simp only [autorepeatCaptured_resynchronises_iff]
  rw [delivered_succ, hcount] at hall
  rwa [traceEvents_packetTrace, ← List.cons_append, ← List.cons_append, decRun_append, decRun_append]

/-! ### The statements -/

/-- Settles O58: the trace sent is the packet's, and what is received of it is delivered as far as RCV has room. -/
theorem roundTripWithRepeats : Obligations.RoundTripWithRepeats := by
  intro c silence s r hctx hidle hr hout hkind hsilence
  obtain ⟨t, hsend, htrace, hctx', hrcv, hdec⟩ := execAll_submit_encStep c hctx hidle hr hout
  obtain ⟨rs, hreceive⟩ :=
    execAll_decOnevent (pause silence :: traceEvents (packetTrace (packetOfCommand c) r)) hctx'
  obtain ⟨hnone, -, hqueue⟩ := decRun_packetTrace (packetOfCommand c) r ((congrArg _ hdec).trans hkind) hsilence
  rw [hrcv] at hqueue
  exact ⟨t, _, hsend, htrace, hreceive, hqueue, hnone⟩

/-- Settles O54: the round trip of O58 with no repeats and room for one command. -/
theorem transmitReceiveRoundTrip : Obligations.TransmitReceiveRoundTrip := by
  intro c silence s hctx hidle hrepeat hout hkind hroom hsilence
  obtain ⟨t, u, hsend, htrace, hreceive, hqueue, hnone⟩ :=
    roundTripWithRepeats c silence s 0 hctx hidle (by rw [hrepeat]; rfl) hout hkind hsilence
  refine ⟨t, _, u, hsend, htrace, hreceive, ?_, hnone⟩
  have hone : min (8 - s.rcv.length) (if 1359 ≤ Config.autorepeatPause.toNat then 0 + 1 else 1) = 1 := by
    rw [ite_self]
    omega
  rw [hqueue, hone]
  rfl

end Sys2Proof.Machine
